-- ==== Sys2Proof/Word.lean ====
section
/-! DEFINITION. The word types of BWC-CORE32 and the plain readings of a word that rule R6 names. -/

namespace Sys2Proof

/-- A 32-bit pattern: the operand, result and bus data width (R5 `XLEN`, R6). -/
abbrev Word := BitVec 32

/-- A byte of the byte-mapped view of the window (R66). -/
abbrev Byte := BitVec 8

/-- A byte address of the block's 4096-byte window (R5 `ADDR_W`, R62). -/
abbrev Addr := BitVec 12

/-- An operation code, the field OP of a command word (R80). -/
abbrev OpCode := BitVec 4

/-- A binary64 pattern (R230). -/
abbrev F64 := BitVec 64

/-- `s32(v)`, the signed two's-complement reading of a pattern (R6). -/
def s32 (v : Word) : Int := v.toInt

/-- `u32(v)`, the unsigned reading of a pattern (R6). -/
def u32 (v : Word) : Nat := v.toNat

/-- `wrap32(z)`, the pattern congruent to `z` modulo `2^32` (R6). -/
def wrap32 (z : Int) : Word := BitVec.ofInt 32 z

end Sys2Proof
end

