-- ==== Sys2Proof/Config.lean ====
section
/-! DEFINITION. What is fixed for the machine: the implementation parameters of rule R5, the parameters the
spec leaves OPEN (92_eei_decisions.md), and the free values of what the spec leaves unspecified.
Every `opaque` below has no body: nothing can evaluate it, so a statement that holds, holds whatever it is. -/

namespace Sys2Proof.Config

/-- `XLEN` (R5). -/
def xlen : Nat := 32

/-- `ADDR_W` (R5): the width in bits of the bus byte address. -/
def addrW : Nat := 12

/-- `TRACE_DEPTH` (R5): the number of entries of the trace buffer (R33). -/
def traceDepth : Nat := 64

/-- `TRACE_MAX_LEN` (R5): the longest trace any rule writes. -/
def traceMaxLen : Nat := 33

/-- `MUL_PAD` (R5): the display padding width of the multiply trace (R161). -/
def mulPad : Nat := 8

/-- The cycles of a command beyond the one every command takes. OPEN in the spec (R290, D13). -/
opaque latencyBeyondOne (op : OpCode) (a b : Word) : Nat

/-- `LATENCY(op, A, B)` (R103, R290): finite and at least 1, otherwise open. -/
def latency (op : OpCode) (a b : Word) : Nat := latencyBeyondOne op a b + 1

/-- `UNSPEC_RESULT(op, A, B)` (R166). -/
opaque unspecResult (op : OpCode) (a b : Word) : Word

/-- `UNSPEC_RESULT2(op, A, B)` (R166). -/
opaque unspecResult2 (op : OpCode) (a b : Word) : Word

/-- The PADW part of `UNSPEC_TRACE(op, A, B)` (R166): any value of the 6-bit field. -/
opaque unspecPadw (op : OpCode) (a b : Word) : BitVec 6

/-- The LEN part of `UNSPEC_TRACE(op, A, B)` (R166): any value of the 6-bit field. -/
opaque unspecLen (op : OpCode) (a b : Word) : BitVec 6

/-- The KIND of entry `entry` of `UNSPEC_TRACE(op, A, B)` (R166): one of the 13 codes of R35, because the codes 13 to
15 are never written (R35, U12). -/
opaque unspecKind (op : OpCode) (a b : Word) (entry : Nat) : Fin 13

/-- Word `word` (0 to 3) of entry `entry` of `UNSPEC_TRACE(op, A, B)` (R166). Of word 0 only the fields of R34 other
than KIND are taken; its reserved bits read 0 (U11). -/
opaque unspecTraceWord (op : OpCode) (a b : Word) (entry word : Nat) : Word

/-- The value of a HOST read of an outcome register while STATUS.BUSY = 1: a fresh draw for every read
(R285, U5). The argument is the model's draw counter. -/
opaque busyRead (draw : Nat) : Word

/-- What the ENGINE's accumulator holds after an edge of the run phase (R36: unspecified). -/
opaque workAcc (draw : Nat) : Word

/-- What the ENGINE's partial remainder holds after an edge of the run phase (R36: unspecified). -/
opaque workRem (draw : Nat) : Word

/-- What the ENGINE's loop counter holds after an edge of the run phase (R36: unspecified). -/
opaque workCount (draw : Nat) : BitVec 6

/-- What the ENGINE's binary64 accumulator holds after an edge of the run phase (R36: unspecified). -/
opaque workF64 (draw : Nat) : F64

/-- Sign and payload of the NaN that a binary64 operation delivers on the operands `x`, `y`. The spec
names no NaN result (R230), and no command produces one (R233 (a)). -/
opaque nanBits (x y : F64) : F64

end Sys2Proof.Config
end

