-- ==== Sys2Proof/Syntax.lean ====
section
/-! DEFINITION. The operations of the block: one constructor per row of the operation map (R81), in its order. -/

namespace Sys2Proof

/-- An operation (R3, R81). A command has no immediate and no register-number field (R82): its operands
are the contents of OPA and OPB latched at accept, so no constructor carries an argument. -/
inductive Instr where
  | add
  | sub
  | mul
  | div
  | and
  | or
  | even
  | popcnt
  | modp2
  | ispow2
  | pow
  deriving DecidableEq, Repr

end Sys2Proof
end

