-- ==== Sys2Proof/WellFormed.lean ====
section
/-! DEFINITION. What makes a command word legal (R80, R83), one check per field, and the check of an operation. -/

namespace Sys2Proof

/-- The field OP of a command word, bits 3:0 (R80). -/
def opField (w : Word) : OpCode := w.extractLsb' 0 4

/-- The field RSVD of a command word, bits 31:4 (R80). -/
def rsvdField (w : Word) : BitVec 28 := w.extractLsb' 4 28

/-- "`w[31:4] = 0`" (R83). -/
def reservedClear (w : Word) : Bool := rsvdField w == 0

/-- "`w[3:0] <= 10`" (R83). -/
def opInRange (w : Word) : Bool := (opField w).toNat ≤ 10

/-- A command word is legal exactly when both checks hold (R83). -/
def wordLegal (w : Word) : Bool := reservedClear w && opInRange w

/-- An operation carries no operand field (R82), so every term of `Instr` is well formed. What can be ill
formed on this hardware is a command word, which `wordLegal` checks. -/
def Instr.wellFormed (_ : Instr) : Bool := true

end Sys2Proof
end

