-- ==== Sys2Proof/Decode.lean ====
section
/-! DEFINITION. The decoder of command words (R81, R83), total over all 2^32 words, and the encoder. -/

namespace Sys2Proof

/-- Why a command word is illegal (R83). The block accepts such a word and completes it with
IllegalOperation (R254); neither reason is a fault. -/
inductive IllegalWord where
  /-- Raised by the decoder when a bit of `w[31:4]` is set. -/
  | reservedBitSet
  /-- Raised by the decoder when `w[31:4] = 0` and `w[3:0]` is 11 to 15. -/
  | opAboveTen
  deriving DecidableEq, Repr

/-- The operation list: an operation's code is its position, counted from 0 (R81). -/
def operationList : List Instr :=
  [.add, .sub, .mul, .div, .and, .or, .even, .popcnt, .modp2, .ispow2, .pow]

/-- The decoder of R83. -/
def decode (w : Word) : Except IllegalWord Instr :=
  if rsvdField w ≠ 0 then .error .reservedBitSet
  else match operationList[(opField w).toNat]? with
    | some i => .ok i
    | none => .error .opAboveTen

/-- The command word of an operation, as R81 lists them. -/
def encode : Instr → Word
  | .add => 0x00000000
  | .sub => 0x00000001
  | .mul => 0x00000002
  | .div => 0x00000003
  | .and => 0x00000004
  | .or => 0x00000005
  | .even => 0x00000006
  | .popcnt => 0x00000007
  | .modp2 => 0x00000008
  | .ispow2 => 0x00000009
  | .pow => 0x0000000A

/-- The operation code of an operation (R81). -/
def Instr.code (i : Instr) : OpCode := opField (encode i)

/-- The 32-bit command word that `nbits` bits of `w` stand for: the bits above `nbits` are 0, and a command
word is one 32-bit word (R80). -/
def tableWord (nbits w : Nat) : Word := BitVec.ofNat 32 (w % 2 ^ nbits)

/-- The operation the decoder reads from the opcode-table word `w` of `nbits` bits. -/
def decodeTableWord (nbits w : Nat) : Option Instr :=
  match decode (tableWord nbits w) with
  | .ok i => some i
  | .error _ => none

end Sys2Proof
end

