-- ==== Sys2Proof/Machine/State.lean ====
section
/-! DEFINITION. The state of the block (10_state.md), the reasons a step can stop, and the reset state (R40). -/

namespace Sys2Proof.Machine

/-- The model of this block has no fault: "The block itself never stops, halts or faults" (R293). Errors of a
command are reported in STATUS (R253) and a bus error is a response on `err` (R256). -/
inductive Fault
  deriving DecidableEq, Repr

/-- The reasons the model gives a step no meaning. -/
inductive Refusal where
  /-- Raised by no arm of `exec`: every operation has its meaning. Safe. -/
  | notModelled (mnemonic : String)
  /-- Raised by the clock cycle when the HOST presents an access before the first reset edge, which R283
  and U6 (`refuse`) give no meaning. Safe: the hardware may do anything there. -/
  | beforeFirstReset
  deriving DecidableEq, Repr

/-- `PHASE` of the ENGINE (R36). -/
inductive Phase where
  | idle
  | run
  deriving DecidableEq, Repr

/-- The fields of STATUS (R25). Bits 7:5 and 31:11 are reserved and read 0, so no storage stands for them. -/
structure Status where
  busy : Bool
  done : Bool
  err : Bool
  unsup : Bool
  drop : Bool
  errcode : BitVec 3
  deriving DecidableEq, Repr

/-- The fields of TRACE_HDR (R32); its other bits are reserved and 0. -/
structure TraceHdr where
  op : OpCode
  padw : BitVec 6
  len : BitVec 6
  deriving DecidableEq, Repr

/-- One entry of the trace buffer: four 32-bit words (R33). -/
structure TraceEntry where
  tw0 : Word
  tv1 : Word
  tv2 : Word
  tv3 : Word
  deriving DecidableEq, Repr

/-- What the input ports carry in one clock cycle (R60). -/
structure PortIn where
  rst : Bool
  sel : Bool
  we : Bool
  addr : Addr
  wdata : Word
  deriving DecidableEq, Repr

/-- What the output ports carry in one clock cycle (R60). -/
structure PortOut where
  rdata : Word
  err : Bool
  busy : Bool
  done : Bool
  deriving DecidableEq, Repr

/-- The state of the block (R20), then the model's own bookkeeping. -/
structure State where
  /-- OPA (R21). -/
  opa : Word
  /-- OPB (R22). -/
  opb : Word
  /-- OP_LAST, what a read of CMD returns (R24). -/
  opLast : OpCode
  /-- STATUS (R25). -/
  status : Status
  /-- RESULT (R31). -/
  result : Word
  /-- RESULT2 (R31). -/
  result2 : Word
  /-- TRACE_HDR (R32). -/
  traceHdr : TraceHdr
  /-- The trace buffer TRACE[0..63] (R33). -/
  trace : Vector TraceEntry 64
  /-- PHASE (R36). -/
  phase : Phase
  /-- LAT_OP (R36). -/
  latOp : OpCode
  /-- LAT_W (R36). -/
  latW : Word
  /-- LAT_A (R36). -/
  latA : Word
  /-- LAT_B (R36). -/
  latB : Word
  /-- The ENGINE's accumulator (R36, working registers). R36 says "accumulators" with no count: that there is one, of 32
  bits, is a DESIGN CHOICE, log entry 8. -/
  workAcc : Word
  /-- The ENGINE's partial remainder (R36, working registers). -/
  workRem : Word
  /-- The ENGINE's loop counter (R36, working registers). R36 says "loop counters" with no count: that there is one, of 6
  bits, is a DESIGN CHOICE, log entry 8. -/
  workCount : BitVec 6
  /-- The ENGINE's binary64 accumulator (R36, working registers). -/
  workF64 : F64
  /-- The edges left until the completion edge of the running command (R103; "its remaining latency", R281). -/
  remaining : Nat
  /-- The model's own: a reset edge has happened since power-up (R283). -/
  resetSeen : Bool
  /-- The model's own: what the HOST and the platform drive on the input ports in the coming cycles, the next
  cycle first. After its end every cycle is idle. -/
  inputs : List PortIn
  /-- The model's own: what the output ports carried in the last cycle (R60, R61). -/
  port : PortOut
  /-- The model's own: the index of the next free draw (R285, R36). It advances in every cycle. -/
  draws : Nat
  deriving DecidableEq, Repr

/-- STATUS = 0x00000000 (R40). -/
def Status.zero : Status :=
  { busy := false, done := false, err := false, unsup := false, drop := false, errcode := 0 }

/-- TRACE_HDR = 0x00000000 (R40). -/
def TraceHdr.zero : TraceHdr := { op := 0, padw := 0, len := 0 }

/-- An entry of four zero words. -/
def TraceEntry.zero : TraceEntry := { tw0 := 0, tv1 := 0, tv2 := 0, tv3 := 0 }

/-- A cycle in which nothing is presented and reset is not asserted. -/
def PortIn.idle : PortIn := { rst := false, sel := false, we := false, addr := 0, wdata := 0 }

/-- The output ports of an idle, quiescent block (R60, R61). -/
def PortOut.zero : PortOut := { rdata := 0, err := false, busy := false, done := false }

/-- The machine right after reset (R40, R280), with no input scheduled. The trace contents, the latches, the
working registers and the model's own fields have no reset value in the spec; their zeros are this model's
(DESIGN CHOICE, unsafe, log entries 2 and 3). -/
def State.reset : State :=
  { opa := 0, opb := 0, opLast := 0, status := Status.zero, result := 0, result2 := 0,
    traceHdr := TraceHdr.zero, trace := Vector.replicate 64 TraceEntry.zero, phase := .idle,
    latOp := 0, latW := 0, latA := 0, latB := 0,
    workAcc := 0, workRem := 0, workCount := 0, workF64 := 0,
    remaining := 0, resetSeen := true, inputs := [], port := PortOut.zero, draws := 0 }

end Sys2Proof.Machine
end

