-- ==== Sys2Proof/Machine/Flags.lean ====
section
/-! DEFINITION. STATUS: its word, and what each event writes in it (R25 to R30). -/

namespace Sys2Proof.Machine

/-- The word a read of STATUS delivers (R25). -/
def Status.word (t : Status) : Word :=
  0#21 ++ t.errcode ++ 0#3 ++ BitVec.ofBool t.drop ++ BitVec.ofBool t.unsup ++ BitVec.ofBool t.err
    ++ BitVec.ofBool t.done ++ BitVec.ofBool t.busy

/-- Accept: BUSY <- 1, DONE, ERR, ERRCODE and UNSUP <- 0, DROP unchanged (R101). -/
def Status.onAccept (t : Status) : Status :=
  { busy := true, done := false, err := false, unsup := false, drop := t.drop, errcode := 0 }

/-- Completion: BUSY <- 0, DONE <- 1, ERR, ERRCODE and UNSUP from the outcome, DROP unchanged (R103). -/
def Status.onCompletion (t : Status) (err : Bool) (code : BitVec 3) (unsup : Bool) : Status :=
  { busy := false, done := true, err := err, unsup := unsup, drop := t.drop, errcode := code }

/-- A CMD write that arrives while BUSY = 1: DROP <- 1 (R30, R102). -/
def Status.onDrop (t : Status) : Status := { t with drop := true }

/-- A HOST write of STATUS: `if v[4] = 1 then STATUS.DROP <- 0`, every other bit ignored (R25). -/
def Status.onWrite (t : Status) (v : Word) : Status :=
  if v.getLsbD 4 then { t with drop := false } else t

end Sys2Proof.Machine
end

