-- ==== Sys2Proof/Machine/Operands.lean ====
section
/-! DEFINITION. Operand assembly (R82): the operands of a command are the latches, whole and unscaled. -/

namespace Sys2Proof.Machine

/-- `A = LAT_A`, the pattern of operand `a` and of the single operand `n` (R82). -/
def patA (s : State) : Word := s.latA

/-- `B = LAT_B`, the pattern of operand `b` (R82). -/
def patB (s : State) : Word := s.latB

end Sys2Proof.Machine
end

