-- ==== Sys2Proof/Machine/Datapath.lean ====
section
/-! DEFINITION. The datapath units that more than one operation uses (40_execution.md, rules R110 to R116). -/

namespace Sys2Proof.Machine

/-- `SHL32(x, s)`, the logical left shift of the barrel shifter; the amount port is 5 bits wide (R110). -/
def shl32 (x : Word) (s : BitVec 5) : Word := x <<< s.toNat

/-- `SAR32(x, s)`, the arithmetic right shift of the barrel shifter; no command reaches it (R111). -/
def sar32 (x : Word) (s : BitVec 5) : Word := x.sshiftRight s.toNat

/-- At most `n` passes of the carry loop of R112. -/
def addPasses : Nat → Word → Word → Word
  | 0, s, _ => s
  | n + 1, s, c => if c = 0 then s else addPasses n (s ^^^ c) (shl32 (s &&& c) 1)

/-- `ADD32(x, y)`: the loop of R112, which ends after at most 32 passes. -/
def add32 (x y : Word) : Word := addPasses 32 x y

/-- At most `n` passes of the borrow loop of R113. -/
def subPasses : Nat → Word → Word → Word
  | 0, d, _ => d
  | n + 1, d, br => if br = 0 then d else subPasses n (d ^^^ br) (shl32 (~~~d &&& br) 1)

/-- `SUB32(x, y)`: the loop of R113, which ends after at most 32 passes. -/
def sub32 (x y : Word) : Word := subPasses 32 x y

/-- `bitlength(v)` (R114). -/
def bitLength (v : Word) : Nat :=
  if s32 v < 0 then 32 else if v = 0 then 1 else 1 + Nat.log2 (u32 v)

/-- Bit `p` of a pattern zero-padded above bit 31 (R6; `(p < 32) ? A[p] : 0` of R141). -/
def bitAt (v : Word) (p : Nat) : Bool := v.getLsbD p

/-- The output bit `o` of `FA(x, y, c)` and of `FS(x, y, c)` (R115). -/
def cellOut (x y c : Bool) : Bool := (x ^^ y) ^^ c

/-- The outgoing carry `co` of `FA(x, y, c)` (R115). -/
def carryOut (x y c : Bool) : Bool := (x && y) || (x && c) || (y && c)

/-- The outgoing borrow `bo` of `FS(x, y, c)` (R115). -/
def borrowOut (x y c : Bool) : Bool := (!x && y) || (!(x ^^ y) && c)

/-- `ISP2(v)`, the power-of-two detector (R116). -/
def isp2 (v : Word) : Bool := decide (0 < s32 v) && decide (v &&& sub32 v 1 = 0)

/-- A boolean in a register: 1 is true, 0 is false (R194, R199). -/
def boolWord (b : Bool) : Word := (BitVec.ofBool b).setWidth 32

end Sys2Proof.Machine
end

