-- ==== Sys2Proof/Machine/Trace.lean ====
section
/-! DEFINITION. The words of the trace header and of the trace entries (R32, R34, R35). -/

namespace Sys2Proof.Machine

/-- The step kinds (R35). -/
inductive Kind where
  | addBit
  | subBit
  | mulBit
  | divBit
  | andBit
  | orBit
  | evenCheck
  | popIter
  | popDone
  | ispowCheck
  | ispowDone
  | modpMask
  | modpAnd
  deriving DecidableEq, Repr

/-- The KIND codes (R35). -/
def Kind.code : Kind → BitVec 4
  | .addBit => 0
  | .subBit => 1
  | .mulBit => 2
  | .divBit => 3
  | .andBit => 4
  | .orBit => 5
  | .evenCheck => 6
  | .popIter => 7
  | .popDone => 8
  | .ispowCheck => 9
  | .ispowDone => 10
  | .modpMask => 11
  | .modpAnd => 12

/-- The kinds in the order of their codes (R35). -/
def kindTable : Vector Kind 13 :=
  #v[.addBit, .subBit, .mulBit, .divBit, .andBit, .orBit, .evenCheck, .popIter, .popDone, .ispowCheck, .ispowDone,
    .modpMask, .modpAnd]

/-- The fields of a control word (R34). A field that a trace rule does not name is 0. -/
structure Control where
  kind : Kind
  pos : BitVec 6 := 0
  a : Bool := false
  b : Bool := false
  cin : Bool := false
  out : Bool := false
  cout : Bool := false
  test : Bool := false
  count : BitVec 6 := 0
  deriving DecidableEq, Repr

/-- The word `TW0` of a control word's fields (R34). -/
def Control.word (c : Control) : Word :=
  0#2 ++ c.count ++ 0#2 ++ BitVec.ofBool c.test ++ BitVec.ofBool c.cout ++ BitVec.ofBool c.out
    ++ BitVec.ofBool c.cin ++ BitVec.ofBool c.b ++ BitVec.ofBool c.a ++ 0#6 ++ c.pos ++ c.kind.code

/-- The control word of kind `kind` whose other fields stand in `w` at the places of R34. -/
def Control.ofFields (kind : Kind) (w : Word) : Control :=
  { kind := kind, pos := w.extractLsb' 4 6, a := w.getLsbD 16, b := w.getLsbD 17, cin := w.getLsbD 18,
    out := w.getLsbD 19, cout := w.getLsbD 20, test := w.getLsbD 21, count := w.extractLsb' 24 6 }

/-- A trace entry from its control word and its value words; a value word not given is 0 (R34). -/
def entryOf (c : Control) (tv1 : Word := 0) (tv2 : Word := 0) (tv3 : Word := 0) : TraceEntry :=
  { tw0 := c.word, tv1 := tv1, tv2 := tv2, tv3 := tv3 }

/-- Word `j` of an entry: TW0, TV1, TV2, TV3 (R33). -/
def TraceEntry.word (e : TraceEntry) (j : Fin 4) : Word :=
  match j with
  | 0 => e.tw0
  | 1 => e.tv1
  | 2 => e.tv2
  | 3 => e.tv3

/-- Field KIND of an entry (R34). -/
def TraceEntry.kindField (e : TraceEntry) : BitVec 4 := e.tw0.extractLsb' 0 4

/-- Field POS of an entry (R34). -/
def TraceEntry.posField (e : TraceEntry) : BitVec 6 := e.tw0.extractLsb' 4 6

/-- Field OUT of an entry (R34). -/
def TraceEntry.outField (e : TraceEntry) : Bool := e.tw0.getLsbD 19

/-- Field COUT of an entry (R34). -/
def TraceEntry.coutField (e : TraceEntry) : Bool := e.tw0.getLsbD 20

/-- Field TEST of an entry (R34). -/
def TraceEntry.testField (e : TraceEntry) : Bool := e.tw0.getLsbD 21

/-- Field COUNT of an entry (R34). -/
def TraceEntry.countField (e : TraceEntry) : BitVec 6 := e.tw0.extractLsb' 24 6

/-- The word a read of TRACE_HDR delivers (R32). -/
def TraceHdr.word (h : TraceHdr) : Word := 0#10 ++ h.len ++ 0#2 ++ h.padw ++ 0#4 ++ h.op

end Sys2Proof.Machine
end

