-- ==== Sys2Proof/Machine/Ops.lean ====
section
/-! DEFINITION. The life of a command (40_execution.md section 1) and its errors (60_exceptions.md): the outcome
record, the error outcome, accept, drop, the run phase, completion, and the reset edge. -/

namespace Sys2Proof.Machine

/-- The outcome `O` of a command (R104). `entries` is `entry[0..len-1]`. -/
structure CmdOutcome where
  result : Word
  result2 : Word
  padw : BitVec 6
  entries : List TraceEntry
  err : Bool
  code : BitVec 3
  unsup : Bool
  deriving DecidableEq, Repr

/-- `O.len` (R104). -/
def CmdOutcome.len (o : CmdOutcome) : BitVec 6 := BitVec.ofNat 6 o.entries.length

/-- An operation that ends normally: `err = 0`, `code = 0`, `unsup = 0` (R104). -/
def normalOutcome (result result2 : Word) (padw : Nat) (entries : List TraceEntry) : CmdOutcome :=
  { result := result, result2 := result2, padw := BitVec.ofNat 6 padw, entries := entries,
    err := false, code := 0, unsup := false }

/-- The errors a command can end with (R250). -/
inductive CmdError where
  | divisionByZero
  | invalidDivisor
  | illegalOperation
  deriving DecidableEq, Repr

/-- The error codes of STATUS.ERRCODE (R250). -/
def CmdError.code : CmdError → BitVec 3
  | .divisionByZero => 1
  | .invalidDivisor => 2
  | .illegalOperation => 3

/-- `raise E()`: the error outcome (R252). It is not a trap (R253): the command completes like any other. -/
def raiseError (e : CmdError) : CmdOutcome :=
  { result := 0, result2 := 0, padw := 0, entries := [], err := true, code := e.code, unsup := false }

/-- The control word of entry `k` of `UNSPEC_TRACE(op, A, B)` (R166): every field is open, KIND among the codes of R35,
and the reserved bits are 0 as in every control word (R34, U11, U12). -/
def unspecControl (op : OpCode) (a b : Word) (k : Nat) : Control :=
  Control.ofFields kindTable[Config.unspecKind op a b k] (Config.unspecTraceWord op a b k 0)

/-- Entry `k` of `UNSPEC_TRACE(op, A, B)` (R166). -/
def unspecEntry (op : OpCode) (a b : Word) (k : Nat) : TraceEntry :=
  entryOf (unspecControl op a b k) (Config.unspecTraceWord op a b k 1) (Config.unspecTraceWord op a b k 2)
    (Config.unspecTraceWord op a b k 3)

/-- `UNSUP_OUTCOME(op, A, B)` (R166): a status, not an error (R255). -/
def unsupOutcome (op : OpCode) (a b : Word) : CmdOutcome :=
  { result := Config.unspecResult op a b, result2 := Config.unspecResult2 op a b,
    padw := Config.unspecPadw op a b,
    entries := (List.range (Config.unspecLen op a b).toNat).map (unspecEntry op a b),
    err := false, code := 0, unsup := true }

/-- The trace buffer after a completion writes entries `0..len-1` and no others (R33, R103). -/
def writeTrace (t : Vector TraceEntry 64) (entries : List TraceEntry) : Vector TraceEntry 64 :=
  Vector.ofFn fun k : Fin 64 => (entries[k.val]?).getD t[k]

/-- Completion: the whole outcome at one edge (R103, R68). -/
def complete (s : State) (o : CmdOutcome) : State :=
  { s with
    result := o.result
    result2 := o.result2
    traceHdr := { op := opField s.latW, padw := o.padw, len := o.len }
    trace := writeTrace s.trace o.entries
    status := s.status.onCompletion o.err o.code o.unsup
    phase := .idle
    remaining := 0 }

/-- An accepted illegal word: it runs no operation and completes with IllegalOperation (R254). -/
def execIllegal (s : State) : Host.Outcome State Fault Refusal :=
  .next (complete s (raiseError .illegalOperation))

/-- The registers that accept writes, as R101 lists them. -/
def latchCommand (s : State) (w : Word) : State :=
  { s with
    latW := w
    latOp := opField w
    latA := s.opa
    latB := s.opb
    opLast := opField w
    status := s.status.onAccept
    phase := .run }

/-- The working registers after an edge of the run phase: unspecified (R36), so a free draw each. -/
def drawWorking (s : State) : State :=
  { s with
    workAcc := Config.workAcc s.draws
    workRem := Config.workRem s.draws
    workCount := Config.workCount s.draws
    workF64 := Config.workF64 s.draws }

/-- Accept (R101): the completion edge is `LATENCY(LAT_OP, LAT_A, LAT_B)` edges away (R103). -/
def accept (s : State) (w : Word) : State :=
  { drawWorking (latchCommand s w) with remaining := Config.latency (opField w) s.opa s.opb }

/-- Drop (R102): `STATUS.DROP <- 1`, nothing else changes, `w` is discarded. -/
def dropCommand (s : State) : State := { s with status := s.status.onDrop }

/-- A command request (R24): accepted when the ENGINE is idle (R101), dropped when it is busy (R102). -/
def requestCommand (s : State) (w : Word) : State :=
  if s.status.busy then dropCommand s else accept s w

/-- An edge of the run phase that is not the completion edge. -/
def runOn (s : State) : State := { drawWorking s with remaining := s.remaining - 1 }

/-- The reset edge (R280): every register of the block takes its reset value. The model's own fields stay as
the caller set them, but for `resetSeen`. -/
def resetEdge (s : State) : State :=
  { State.reset with inputs := s.inputs, port := s.port, draws := s.draws }

end Sys2Proof.Machine
end

