-- ==== Sys2Proof/Machine/Bus.lean ====
section
/-! DEFINITION. The HOST bus (20_memory.md): the register map, reads, writes, the output ports. -/

namespace Sys2Proof.Machine

/-- What a mapped offset names (R63). -/
inductive Target where
  | opa
  | opb
  | cmd
  | status
  | result
  | result2
  | traceHdr
  | trace (k : Fin 64) (j : Fin 4)
  deriving DecidableEq, Repr

/-- The register map (R63): `none` for a misaligned or an unmapped address, which gets `err` = 1 (R64). -/
def mapAddr (a : Addr) : Option Target :=
  if a.extractLsb' 0 2 ≠ 0 then none
  else if a.extractLsb' 10 2 = 1 then
    some (.trace (a.extractLsb' 4 6).toFin (a.extractLsb' 2 2).toFin)
  else match a.toNat with
    | 0x000 => some .opa
    | 0x004 => some .opb
    | 0x008 => some .cmd
    | 0x00C => some .status
    | 0x010 => some .result
    | 0x014 => some .result2
    | 0x018 => some .traceHdr
    | _ => none

/-- The registers whose reads are unspecified while STATUS.BUSY = 1 (R285). -/
def Target.holdsOutcome : Target → Bool
  | .opa => false
  | .opb => false
  | .cmd => false
  | .status => false
  | .result => true
  | .result2 => true
  | .traceHdr => true
  | .trace _ _ => true

/-- The word a target holds (R21 to R33). An entry at or above LEN reads 0 (R33). -/
def heldWord (s : State) : Target → Word
  | .opa => s.opa
  | .opb => s.opb
  | .cmd => s.opLast.setWidth 32
  | .status => s.status.word
  | .result => s.result
  | .result2 => s.result2
  | .traceHdr => s.traceHdr.word
  | .trace k j => if k.val < s.traceHdr.len.toNat then (s.trace[k]).word j else 0

/-- `MemRead` of a mapped word (R8): exact, but for an outcome register while BUSY = 1, where each read is an
independent arbitrary value (R285). -/
def readTarget (s : State) (t : Target) : Word :=
  if s.status.busy && t.holdsOutcome then Config.busyRead s.draws else heldWord s t

/-- `MemWrite` of a mapped word (R8, R67): OPA, OPB, CMD and STATUS have an effect, a write of a read-only
register is ignored. -/
def writeTarget (s : State) (t : Target) (v : Word) : State :=
  match t with
  | .opa => { s with opa := v }
  | .opb => { s with opb := v }
  | .cmd => requestCommand s v
  | .status => { s with status := s.status.onWrite v }
  | .result => s
  | .result2 => s
  | .traceHdr => s
  | .trace _ _ => s

/-- The input ports in the present cycle. -/
def currentInput (s : State) : PortIn := s.inputs.headD PortIn.idle

/-- `rdata` in the present cycle (R61, R64, R282), from the state at the start of the cycle. -/
def readData (s : State) (p : PortIn) : Word :=
  if p.sel && !p.we && !p.rst then
    match mapAddr p.addr with
    | some t => readTarget s t
    | none => 0
  else 0

/-- `err` in the present cycle (R64, R282). With no access presented it is 0. -/
def errorResponse (p : PortIn) : Bool := p.sel && !p.rst && (mapAddr p.addr).isNone

/-- The `busy` wire, which equals STATUS.BUSY at every cycle (R39). -/
def busyWire (s : State) : Bool := s.status.busy

/-- The `done` wire, which equals STATUS.DONE at every cycle (R39). -/
def doneWire (s : State) : Bool := s.status.done

/-- The output ports in the present cycle (R60). -/
def outputs (s : State) (p : PortIn) : PortOut :=
  { rdata := readData s p, err := errorResponse p, busy := busyWire s, done := doneWire s }

/-- The model's own record of the cycle: the input is used up, the outputs are kept, the draw counter advances. -/
def recordCycle (s : State) (p : PortIn) : State :=
  { s with inputs := s.inputs.tail, port := outputs s p, draws := s.draws + 1 }

/-- What a HOST access presented in a cycle with `rst` = 0 does at the edge that ends it (R61, R64, R67). -/
def accessEffect (s : State) (p : PortIn) : State :=
  if p.sel && p.we then
    match mapAddr p.addr with
    | some t => writeTarget s t p.wdata
    | none => s
  else s

/-- A cycle as the bus sees it: the record, then the access. -/
def busCycle (s : State) (p : PortIn) : State := accessEffect (recordCycle s p) p

/-- Byte `i` (0 to 3) of a word, the lowest address first (R66). -/
def byteOf (w : Word) (i : Nat) : Byte := w.extractLsb' (8 * i) 8

/-- The word of four bytes, the lowest address first (R66). -/
def wordOfBytes (b0 b1 b2 b3 : Byte) : Word := b3 ++ b2 ++ b1 ++ b0

/-- The byte-mapped view of the window (R66): the byte at an address, `none` where nothing is mapped. -/
def windowByte (s : State) (a : Addr) : Option Byte :=
  (mapAddr (a &&& 0xFFC)).map fun t => byteOf (heldWord s t) (a.extractLsb' 0 2).toNat

end Sys2Proof.Machine
end

