-- ==== Sys2Proof/Machine/AddSub.lean ====
section
/-! DEFINITION. ADD and SUB with their traces (41_add_subtract.md). -/

namespace Sys2Proof.Machine

/-- The loop of R141 from position `p` with carry `c`, `n` positions, least-significant first. -/
def addColumns (a b : Word) : (n p : Nat) → (c : Bool) → List TraceEntry
  | 0, _, _ => []
  | n + 1, p, c =>
    let x := bitAt a p
    let y := bitAt b p
    entryOf { kind := .addBit, pos := BitVec.ofNat 6 p, a := x, b := y, cin := c,
              out := cellOut x y c, cout := carryOut x y c }
      :: addColumns a b n (p + 1) (carryOut x y c)

/-- The loop of R144 from position `p` with borrow `c`, `n` positions, least-significant first. -/
def subColumns (a b : Word) : (n p : Nat) → (c : Bool) → List TraceEntry
  | 0, _, _ => []
  | n + 1, p, c =>
    let x := bitAt a p
    let y := bitAt b p
    entryOf { kind := .subBit, pos := BitVec.ofNat 6 p, a := x, b := y, cin := c,
              out := cellOut x y c, cout := borrowOut x y c }
      :: subColumns a b n (p + 1) (borrowOut x y c)

/-- `W` of the add and subtract traces (R141, R144). -/
def sumWidth (a b : Word) : Nat := max (bitLength a) (bitLength b) + 1

/-- `ADD_TRACE(A, B)` (R141): entry 0 holds position `W-1`. -/
def addTrace (a b : Word) : List TraceEntry := (addColumns a b (sumWidth a b) 0 false).reverse

/-- `SUB_TRACE(A, B)` (R144): entry 0 holds position `W-1`. -/
def subTrace (a b : Word) : List TraceEntry := (subColumns a b (sumWidth a b) 0 false).reverse

/-- The outcome of ADD (R140). -/
def addOutcome (a b : Word) : CmdOutcome := normalOutcome (add32 a b) 0 (sumWidth a b) (addTrace a b)

/-- The outcome of SUB (R143). -/
def subOutcome (a b : Word) : CmdOutcome := normalOutcome (sub32 a b) 0 (sumWidth a b) (subTrace a b)

/-- ADD (R140). -/
def execAdd (s : State) : Host.Outcome State Fault Refusal :=
  .next (complete s (addOutcome (patA s) (patB s)))

/-- SUB (R143). -/
def execSub (s : State) : Host.Outcome State Fault Refusal :=
  .next (complete s (subOutcome (patA s) (patB s)))

end Sys2Proof.Machine
end

