-- ==== Sys2Proof/Machine/Bitwise.lean ====
section
/-! DEFINITION. AND, OR, EVEN, POPCNT, ISPOW2 and MODP2 with their traces (43_bitwise_checks.md). -/

namespace Sys2Proof.Machine

/-- `W` of the AND and OR traces, and PADW of the MODP2 trace (R192, R202). -/
def pairWidth (a b : Word) : Nat := max (bitLength a) (bitLength b)

/-- The AND trace from string index 0, bit position `n-1` first (R192). -/
def andSteps (a b : Word) : (n : Nat) → List TraceEntry
  | 0 => []
  | p + 1 =>
    entryOf { kind := .andBit, pos := BitVec.ofNat 6 p, a := bitAt a p, b := bitAt b p,
              out := bitAt a p && bitAt b p }
      :: andSteps a b p

/-- The OR trace from string index 0, bit position `n-1` first (R192). -/
def orSteps (a b : Word) : (n : Nat) → List TraceEntry
  | 0 => []
  | p + 1 =>
    entryOf { kind := .orBit, pos := BitVec.ofNat 6 p, a := bitAt a p, b := bitAt b p,
              out := bitAt a p || bitAt b p }
      :: orSteps a b p

/-- The outcome of AND (R190, R192). -/
def andOutcome (a b : Word) : CmdOutcome :=
  normalOutcome (a &&& b) 0 (pairWidth a b) (andSteps a b (pairWidth a b))

/-- The outcome of OR (R191, R192). -/
def orOutcome (a b : Word) : CmdOutcome :=
  normalOutcome (a ||| b) 0 (pairWidth a b) (orSteps a b (pairWidth a b))

/-- `(A & 1) == 0` (R194). -/
def isEven (a : Word) : Bool := decide (a &&& 1 = 0)

/-- `EVEN_TRACE(A)` (R195). -/
def evenTrace (a : Word) : List TraceEntry :=
  [entryOf { kind := .evenCheck, a := bitAt a 0, out := isEven a } a 1 (a &&& 1)]

/-- The outcome of EVEN (R194). -/
def evenOutcome (a : Word) : CmdOutcome :=
  normalOutcome (boolWord (isEven a)) 0 (bitLength a) (evenTrace a)

/-- At most `n` iterations of the loop of R196 on the working value `v` with count `c`. -/
def popLoop : (n : Nat) → (v : Word) → (c : Nat) → Nat
  | 0, _, c => c
  | n + 1, v, c => if v = 0 then c else popLoop n (v &&& sub32 v 1) (c + 1)

/-- At most `n` iterations of the loop of R197 on the working value `v` with count `i`, then the POP_DONE entry. -/
def popSteps (a : Word) : (n : Nat) → (v : Word) → (i : Nat) → List TraceEntry
  | 0, _, i => [entryOf { kind := .popDone, count := BitVec.ofNat 6 i } a]
  | n + 1, v, i =>
    if v = 0 then [entryOf { kind := .popDone, count := BitVec.ofNat 6 i } a]
    else
      entryOf { kind := .popIter, count := BitVec.ofNat 6 (i + 1) } v (sub32 v 1) (v &&& sub32 v 1)
        :: popSteps a n (v &&& sub32 v 1) (i + 1)

/-- The outcome of POPCNT (R196, R197): each iteration clears one of the 32 bits, so 32 iterations are enough. -/
def popcntOutcome (a : Word) : CmdOutcome :=
  normalOutcome (wrap32 (popLoop 32 a 0)) 0 (bitLength a) (popSteps a 32 a 0)

/-- `ISPOW_TRACE(A)` (R200). -/
def ispowTrace (a : Word) : List TraceEntry :=
  [entryOf { kind := .ispowCheck, test := decide (0 < s32 a) } a (sub32 a 1) (a &&& sub32 a 1),
   entryOf { kind := .ispowDone, out := isp2 a } a]

/-- The outcome of ISPOW2 (R199). -/
def ispow2Outcome (a : Word) : CmdOutcome :=
  normalOutcome (boolWord (isp2 a)) 0 (bitLength a) (ispowTrace a)

/-- `MODP_TRACE(A, B)` (R202). -/
def modpTrace (a b : Word) : List TraceEntry :=
  [entryOf { kind := .modpMask, test := true } b (sub32 b 1),
   entryOf { kind := .modpAnd } a (sub32 b 1) (a &&& sub32 b 1)]

/-- The outcome of MODP2 (R201). -/
def modp2Outcome (a b : Word) : CmdOutcome :=
  if isp2 b then normalOutcome (a &&& sub32 b 1) 0 (pairWidth a b) (modpTrace a b)
  else raiseError .invalidDivisor

/-- AND (R190). -/
def execAnd (s : State) : Host.Outcome State Fault Refusal :=
  .next (complete s (andOutcome (patA s) (patB s)))

/-- OR (R191). -/
def execOr (s : State) : Host.Outcome State Fault Refusal :=
  .next (complete s (orOutcome (patA s) (patB s)))

/-- EVEN (R194); LAT_B is not read (R82). -/
def execEven (s : State) : Host.Outcome State Fault Refusal :=
  .next (complete s (evenOutcome (patA s)))

/-- POPCNT (R196); LAT_B is not read (R82). -/
def execPopcnt (s : State) : Host.Outcome State Fault Refusal :=
  .next (complete s (popcntOutcome (patA s)))

/-- MODP2 (R201). -/
def execModp2 (s : State) : Host.Outcome State Fault Refusal :=
  .next (complete s (modp2Outcome (patA s) (patB s)))

/-- ISPOW2 (R199); LAT_B is not read (R82). -/
def execIspow2 (s : State) : Host.Outcome State Fault Refusal :=
  .next (complete s (ispow2Outcome (patA s)))

end Sys2Proof.Machine
end

