-- ==== Sys2Proof/Machine/MulDiv.lean ====
section
/-! DEFINITION. MUL and DIV with their traces (42_multiply_divide.md). -/

namespace Sys2Proof.Machine

/-- The shift amount for bit index `i` (R110: the amount port is 5 bits wide; every user presents 0 to 31). -/
def shiftAmount (i : Nat) : BitVec 5 := BitVec.ofNat 5 i

/-- The scan of R160 from multiplier bit `i` with accumulator `acc`, `n` bits, low to high. -/
def mulScan (a b : Word) : (n i : Nat) → (acc : Word) → Word
  | 0, _, acc => acc
  | n + 1, i, acc =>
    mulScan a b n (i + 1) (if bitAt b i then add32 acc (shl32 a (shiftAmount i)) else acc)

/-- The loop of R161 from multiplier bit `k` with running sum `acc`, `n` bits. -/
def mulSteps (a b : Word) : (n k : Nat) → (acc : Word) → List TraceEntry
  | 0, _, _ => []
  | n + 1, k, acc =>
    let bk := bitAt b k
    let pp := shl32 a (shiftAmount k)
    let con := if bk then pp else 0
    entryOf { kind := .mulBit, pos := BitVec.ofNat 6 k, b := bk, out := bk } pp con (add32 acc con)
      :: mulSteps a b n (k + 1) (add32 acc con)

/-- `N` of the multiply trace (R161). -/
def mulLength (b : Word) : Nat := max Config.mulPad (bitLength b)

/-- `MUL_TRACE(A, B)` (R161). -/
def mulTrace (a b : Word) : List TraceEntry := mulSteps a b (mulLength b) 0 0

/-- An operand pair with a negative operand: unsupported by MUL and DIV (R166). -/
def negativeOperand (a b : Word) : Bool := decide (s32 a < 0) || decide (s32 b < 0)

/-- The outcome of MUL (R160). -/
def mulOutcome (a b : Word) : CmdOutcome :=
  if negativeOperand a b then unsupOutcome (Instr.code .mul) a b
  else normalOutcome (mulScan a b 32 0 0) 0 Config.mulPad (mulTrace a b)

/-- The largest `k` in `0..k0` with `b * 2^k <= r`, compared exactly (R163); 0 where only 0 may qualify. -/
def largestShift (b r : Nat) : (k0 : Nat) → Nat
  | 0 => 0
  | k + 1 => if b * 2 ^ (k + 1) ≤ r then k + 1 else largestShift b r k

/-- At most `n` subtractions of the loop of R163, on mathematical integers: the pair `(R, Q)`. -/
def divLoop (b : Nat) : (n r q : Nat) → Nat × Nat
  | 0, r, q => (r, q)
  | n + 1, r, q =>
    if b ≤ r then
      divLoop b n (r - b * 2 ^ largestShift b r 30) (q + 2 ^ largestShift b r 30)
    else (r, q)

/-- `(R, Q)` at the end of the loop of R163. With `1 <= b` and `a < 2^31` the shift found falls at every
subtraction, so 31 subtractions are enough. -/
def divResult (a b : Word) : Nat × Nat := divLoop (u32 b) 31 (u32 a) 0

/-- The loop of R164: `n` dividend bits from bit `n-1` down, remainder `r`, quotient so far `q`. -/
def divSteps (a b : Word) : (n : Nat) → (r q : Word) → List TraceEntry
  | 0, _, _ => []
  | p + 1, r, q =>
    let x := bitAt a p
    let rs := shl32 r 1 ||| boolWord x
    let t := decide (s32 b ≤ s32 rs)
    let ro := if t then sub32 rs b else rs
    let q' := shl32 q 1 ||| boolWord t
    entryOf { kind := .divBit, pos := BitVec.ofNat 6 p, a := x, out := t, test := t } rs ro q'
      :: divSteps a b p ro q'

/-- `DIV_TRACE(A, B)` (R164). -/
def divTrace (a b : Word) : List TraceEntry := divSteps a b (bitLength a) 0 0

/-- The outcome of DIV (R163), its checks in the order of R251. -/
def divOutcome (a b : Word) : CmdOutcome :=
  if b = 0 then raiseError .divisionByZero
  else if negativeOperand a b then unsupOutcome (Instr.code .div) a b
  else normalOutcome (wrap32 (divResult a b).2) (wrap32 (divResult a b).1) (bitLength a) (divTrace a b)

/-- MUL (R160). -/
def execMul (s : State) : Host.Outcome State Fault Refusal :=
  .next (complete s (mulOutcome (patA s) (patB s)))

/-- DIV (R163). -/
def execDiv (s : State) : Host.Outcome State Fault Refusal :=
  .next (complete s (divOutcome (patA s) (patB s)))

end Sys2Proof.Machine
end

