-- ==== Sys2Proof/Machine/Binary64.lean ====
section
/-! DEFINITION. IEEE 754 binary64 as rule R230 gives it: `f64`, `fmul`, `fdiv`, round to nearest, ties to even,
gradual underflow, overflow to infinity. The operations compute exactly on integers and round once at the end. -/

namespace Sys2Proof.Machine

/-- What a binary64 pattern stands for (R230). `finite sign m e` is `(-1)^sign * m * 2^e` with `m > 0`. -/
inductive FValue where
  | zero (sign : Bool)
  | finite (sign : Bool) (m : Nat) (e : Int)
  | infinite (sign : Bool)
  | nan
  deriving DecidableEq, Repr

/-- The sign, bit 63 (R230). -/
def signField (x : F64) : Bool := x.getLsbD 63

/-- The biased exponent, bits 62:52 (R230). -/
def expField (x : F64) : Nat := (x.extractLsb' 52 11).toNat

/-- The fraction, bits 51:0 (R230). -/
def fracField (x : F64) : Nat := (x.extractLsb' 0 52).toNat

/-- The reading of a pattern (R230): zeros, subnormals, normals, infinities, NaN. -/
def fvalue (x : F64) : FValue :=
  if expField x = 2047 then
    if fracField x = 0 then .infinite (signField x) else .nan
  else if expField x = 0 then
    if fracField x = 0 then .zero (signField x) else .finite (signField x) (fracField x) (-1074)
  else .finite (signField x) (2 ^ 52 + fracField x) ((expField x : Int) - 1075)

/-- The bit pattern of a sign on a magnitude of 63 bits. -/
def withSign (sign : Bool) (magnitude : Nat) : F64 := BitVec.ofBool sign ++ BitVec.ofNat 63 magnitude

/-- The magnitude bits of infinity: exponent 2047, fraction 0 (R230). -/
def infinityBits : Nat := 2047 * 2 ^ 52

/-- `m / 2^d` rounded to the nearest integer, ties to even (R230). -/
def roundHalfEven (m d : Nat) : Nat :=
  if 2 * (m % 2 ^ d) < 2 ^ d then m / 2 ^ d
  else if 2 ^ d < 2 * (m % 2 ^ d) then m / 2 ^ d + 1
  else m / 2 ^ d + m / 2 ^ d % 2

/-- The exponent of the last place of a result near `m * 2^e`: 52 places below the leading bit, and never below
the subnormal grid (R230, gradual underflow). -/
def lastPlace (m : Nat) (e : Int) : Int := max ((Nat.log2 m : Int) + e - 52) (-1074)

/-- `m * 2^e` in units of the last place, rounded (R230). -/
def significand (m : Nat) (e : Int) : Nat :=
  let q := lastPlace m e
  if q ≤ e then m * 2 ^ (e - q).toNat else roundHalfEven m (q - e).toNat

/-- The magnitude bits of `m * 2^e` rounded: biased exponent and fraction add up, so that a significand that
rounds up to `2^53` carries into the exponent; above the largest finite value it is infinity (R230). -/
def magnitudeBits (m : Nat) (e : Int) : Nat :=
  min ((lastPlace m e + 1074).toNat * 2 ^ 52 + significand m e) infinityBits

/-- The pattern of `(-1)^sign * m * 2^e` rounded, `m > 0` (R230). -/
def roundPack (sign : Bool) (m : Nat) (e : Int) : F64 := withSign sign (magnitudeBits m e)

/-- A quiet NaN; its sign and its other fraction bits are free, R230 does not give them. -/
def nanResult (x y : F64) : F64 := 0x7FF8000000000000 ||| Config.nanBits x y

/-- `f64(i)`, exact for a 32-bit signed `i`; `f64(0)` is +0 (R230). -/
def f64OfInt (i : Int) : F64 :=
  if i = 0 then withSign false 0 else roundPack (decide (i < 0)) i.natAbs 0

/-- The pattern of 1.0 (R231). -/
def f64One : F64 := 0x3FF0000000000000

/-- `fmul(x, y)` (R230). -/
def fmul (x y : F64) : F64 :=
  match fvalue x, fvalue y with
  | .nan, _ => nanResult x y
  | _, .nan => nanResult x y
  | .infinite _, .zero _ => nanResult x y
  | .zero _, .infinite _ => nanResult x y
  | .infinite sx, .infinite sy => withSign (sx ^^ sy) infinityBits
  | .infinite sx, .finite sy _ _ => withSign (sx ^^ sy) infinityBits
  | .finite sx _ _, .infinite sy => withSign (sx ^^ sy) infinityBits
  | .zero sx, .zero sy => withSign (sx ^^ sy) 0
  | .zero sx, .finite sy _ _ => withSign (sx ^^ sy) 0
  | .finite sx _ _, .zero sy => withSign (sx ^^ sy) 0
  | .finite sx mx ex, .finite sy my ey => roundPack (sx ^^ sy) (mx * my) (ex + ey)

/-- The integer quotient of `mx * 2^120` by `my` with one more bit below it that is set when the division leaves
a remainder. It has at least 67 bits, so that bit only breaks ties. -/
def stickyQuotient (mx my : Nat) : Nat :=
  2 * (mx * 2 ^ 120 / my) + (if mx * 2 ^ 120 % my = 0 then 0 else 1)

/-- `fdiv(x, y)` (R230). -/
def fdiv (x y : F64) : F64 :=
  match fvalue x, fvalue y with
  | .nan, _ => nanResult x y
  | _, .nan => nanResult x y
  | .infinite _, .infinite _ => nanResult x y
  | .zero _, .zero _ => nanResult x y
  | .infinite sx, .zero sy => withSign (sx ^^ sy) infinityBits
  | .infinite sx, .finite sy _ _ => withSign (sx ^^ sy) infinityBits
  | .finite sx _ _, .zero sy => withSign (sx ^^ sy) infinityBits
  | .zero sx, .infinite sy => withSign (sx ^^ sy) 0
  | .finite sx _ _, .infinite sy => withSign (sx ^^ sy) 0
  | .zero sx, .finite sy _ _ => withSign (sx ^^ sy) 0
  | .finite sx mx ex, .finite sy my ey => roundPack (sx ^^ sy) (stickyQuotient mx my) (ex - ey - 121)

end Sys2Proof.Machine
end

