-- ==== Sys2Proof/Machine/Power.lean ====
section
/-! DEFINITION. POW, the exponentiation engine (44_power.md). -/

namespace Sys2Proof.Machine

/-- `base` of R231: a negative exponent inverts the base before squaring. -/
def powBase (a b : Word) : F64 := if s32 b < 0 then fdiv f64One (f64OfInt (s32 a)) else f64OfInt (s32 a)

/-- `e` of R231: the magnitude of the exponent as an unsigned 32-bit number. -/
def powExponent (b : Word) : Word := if s32 b < 0 then wrap32 (-(s32 b)) else b

/-- The loop of R231 over exponent bits `n-1` down to 0. -/
def powLoop (base : F64) (e : Word) : (n : Nat) → (acc : F64) → F64
  | 0, acc => acc
  | i + 1, acc =>
    powLoop base e i (if bitAt e i then fmul (fmul acc acc) base else fmul acc acc)

/-- `bits64(acc)` at the end of the loop of R231. -/
def powBits (a b : Word) : F64 := powLoop (powBase a b) (powExponent b) 32 f64One

/-- The outcome of POW (R231); it writes no trace (R232). -/
def powOutcome (a b : Word) : CmdOutcome :=
  normalOutcome ((powBits a b).extractLsb' 0 32) ((powBits a b).extractLsb' 32 32) 0 []

/-- POW (R231). -/
def execPow (s : State) : Host.Outcome State Fault Refusal :=
  .next (complete s (powOutcome (patA s) (patB s)))

end Sys2Proof.Machine
end

