-- ==== Sys2Proof/Machine/Dispatch.lean ====
section
/-! DEFINITION. The dispatch of an operation to its meaning (R104). -/

namespace Sys2Proof.Machine

/-- The completion edge of the operation `i` (R103, R104), on the operands the latches hold. -/
def exec (i : Instr) (s : State) : Host.Outcome State Fault Refusal :=
  match i with
  | .add => Sys2Proof.Machine.execAdd s
  | .sub => Sys2Proof.Machine.execSub s
  | .mul => Sys2Proof.Machine.execMul s
  | .div => Sys2Proof.Machine.execDiv s
  | .and => Sys2Proof.Machine.execAnd s
  | .or => Sys2Proof.Machine.execOr s
  | .even => Sys2Proof.Machine.execEven s
  | .popcnt => Sys2Proof.Machine.execPopcnt s
  | .modp2 => Sys2Proof.Machine.execModp2 s
  | .ispow2 => Sys2Proof.Machine.execIspow2 s
  | .pow => Sys2Proof.Machine.execPow s

end Sys2Proof.Machine
end

