-- ==== Sys2Proof/Machine/Cycle.lean ====
section
/-! DEFINITION. One clock cycle of the block: reset, the HOST's access, the ENGINE's edge (R60, R69, R280). -/

namespace Sys2Proof.Machine

/-- The completion edge: `Exec(LAT_W, LAT_A, LAT_B)` (R103, R104). An illegal word raises IllegalOperation (R254). -/
def runCommand (s : State) : Host.Outcome State Fault Refusal :=
  match decode s.latW with
  | .ok i => exec i s
  | .error _ => execIllegal s

/-- The ENGINE's part of the edge, on the state `s'` that the HOST's access of the cycle left (R69: the HOST
write is ordered first). Whether a command runs is judged at the start of the cycle, so a command accepted at
this edge completes one edge later at the earliest (R103, R287 (a)). -/
def engineEdge (s s' : State) : Host.Outcome State Fault Refusal :=
  match s.phase with
  | .idle => .next s'
  | .run => if s.remaining ≤ 1 then runCommand s' else .next (runOn s')

/-- A cycle with `rst` = 0 after the first reset edge. -/
def workingCycle (s : State) (p : PortIn) : Host.Outcome State Fault Refusal :=
  engineEdge s (busCycle s p)

/-- A cycle with `rst` = 0 before the first reset edge (R283): an access has no meaning (U6); without one the
unspecified registers are left as they are. -/
def powerUpCycle (s : State) (p : PortIn) : Host.Outcome State Fault Refusal :=
  if p.sel then .refused .beforeFirstReset else .next (recordCycle s p)

/-- A cycle with `rst` = 1: reset wins over any access (R280, R282). -/
def resetCycle (s : State) (p : PortIn) : Host.Outcome State Fault Refusal :=
  .next (resetEdge (recordCycle s p))

/-- One clock cycle with the given input ports. -/
def clockCycle (s : State) (p : PortIn) : Host.Outcome State Fault Refusal :=
  if p.rst then resetCycle s p
  else if s.resetSeen then workingCycle s p
  else powerUpCycle s p

/-- The state in which the very next cycle is the completion edge of the command word `w`: `w` has been accepted
(R101) and its latency is used up but for one edge; an idle cycle stands ahead of the scheduled inputs. -/
def loadCommand (s : State) (w : Word) : State :=
  { latchCommand s w with remaining := 1, resetSeen := true, inputs := PortIn.idle :: s.inputs }

end Sys2Proof.Machine
end

