-- ==== Sys2Proof/Machine/Step.lean ====
section
/-! DEFINITION. The step of the machine: one clock cycle on the next scheduled input. -/

namespace Sys2Proof.Machine

/-- One clock cycle of the block (R60). -/
def step (s : State) : Host.Outcome State Fault Refusal := clockCycle s (currentInput s)

/-- The state in which the very next step runs the command word that `nbits` bits of `w` stand for. -/
def State.withFetchWord (s : State) (nbits w : Nat) : State := loadCommand s (tableWord nbits w)

end Sys2Proof.Machine
end

