-- ==== Sys2Proof/Machine/HostProgram.lean ====
section
/-! DEFINITION. The HOST's side: the notation of HOST programs and its bus transactions (R84), the
pseudo-instructions (R85), and a HOST that runs such a program against the block, one statement a cycle. The HOST's
program and variables are the HOST's, not the block's (R84), so they stand outside `State`. -/

namespace Sys2Proof.Machine

/-- The registers a HOST program names (R84). -/
inductive BusReg where
  | opa
  | opb
  | cmd
  | status
  | result
  | result2
  | traceHdr
  deriving DecidableEq, Repr

/-- `offset(REG)` (R63, R84). -/
def BusReg.offset : BusReg → Addr
  | .opa => 0x000
  | .opb => 0x004
  | .cmd => 0x008
  | .status => 0x00C
  | .result => 0x010
  | .result2 => 0x014
  | .traceHdr => 0x018

/-- `0x400 + 16k + 4j` (R84), for the indices 0 to 63 that the spec has. For an index above 63, which R84 and R33 give no
meaning, the sum is cut to the 12 bits of the port `addr`, so that it may name another register (192 gives 0x000, OPA):
DESIGN CHOICE, log entry 15. -/
def traceOffset (k : Nat) (j : Fin 4) : Addr := BitVec.ofNat 12 (0x400 + 16 * k + 4 * j.val)

/-- A value a HOST statement writes: a literal, or a HOST variable. -/
inductive HostValue where
  | lit (v : Word)
  | var (x : Nat)
  deriving DecidableEq, Repr

/-- The condition of a HOST branch on HOST variables. -/
inductive HostCond where
  | bitIsZero (x : Nat) (i : Fin 32)
  | equal (u v : HostValue)
  deriving DecidableEq, Repr

/-- The forms of R84. -/
inductive HostStmt where
  | wr (r : BusReg) (v : HostValue)
  | wrCmd (i : Instr)
  | rd (r : BusReg) (x : Nat)
  | rdTrace (k : HostValue) (j : Fin 4) (x : Nat)
  | label (l : Nat)
  | ifGoto (c : HostCond) (l : Nat)
  deriving DecidableEq, Repr

/-- The value of a HOST variable; a variable the HOST has not set holds 0. -/
def hostVar (vars : List Word) (x : Nat) : Word := vars.getD x 0

/-- The value of a HOST operand. -/
def HostValue.eval (vars : List Word) : HostValue → Word
  | .lit v => v
  | .var x => hostVar vars x

/-- The value of a HOST condition. -/
def HostCond.eval (vars : List Word) : HostCond → Bool
  | .bitIsZero x i => !(hostVar vars x).getLsbD i
  | .equal u v => decide (u.eval vars = v.eval vars)

/-- `MemWrite(addr, 4, v)` as one access (R8, R61). -/
def writeAccess (a : Addr) (v : Word) : PortIn := { rst := false, sel := true, we := true, addr := a, wdata := v }

/-- `MemRead(addr, 4)` as one access (R8, R61). -/
def readAccess (a : Addr) : PortIn := { rst := false, sel := true, we := false, addr := a, wdata := 0 }

/-- The bus transaction encoding of a statement (R84); a label and a branch present no access. -/
def HostStmt.access (vars : List Word) : HostStmt → PortIn
  | .wr r v => writeAccess r.offset (v.eval vars)
  | .wrCmd i => writeAccess BusReg.cmd.offset (encode i)
  | .rd r _ => readAccess r.offset
  | .rdTrace k j _ => readAccess (traceOffset (k.eval vars).toNat j)
  | .label _ => PortIn.idle
  | .ifGoto _ _ => PortIn.idle

/-- The pseudo-instructions (R85). `x` is the HOST variable `t` and `l` the label `L` of the expansion. -/
inductive Pseudo where
  | wait (x l : Nat)
  | run (i : Instr) (u v : HostValue) (x l : Nat)
  | run1 (i : Instr) (u : HostValue) (x l : Nat)
  | clrDrop
  deriving DecidableEq, Repr

/-- `L: rd STATUS -> t ; if t[1] == 0 goto L` (R85). -/
def waitStmts (x l : Nat) : List HostStmt := [.label l, .rd .status x, .ifGoto (.bitIsZero x 1) l]

/-- The expansions of R85. -/
def Pseudo.expand : Pseudo → List HostStmt
  | .wait x l => waitStmts x l
  | .run i u v x l => .wr .opa u :: .wr .opb v :: .wrCmd i :: waitStmts x l
  | .run1 i u x l => .wr .opa u :: .wrCmd i :: waitStmts x l
  | .clrDrop => [.wr .status (.lit 0x00000010)]

/-- A HOST: its program, the statement it is at, and its variables. -/
structure HostAgent where
  prog : List HostStmt
  pc : Nat
  vars : List Word
  deriving DecidableEq, Repr

/-- Sets a HOST variable. -/
def setHostVar (vars : List Word) (x : Nat) (v : Word) : List Word :=
  (vars ++ List.replicate (x + 1 - vars.length) 0).set x v

/-- The variables after the statement, when the read it presented delivered `rdata`. -/
def HostStmt.varsAfter (vars : List Word) (rdata : Word) : HostStmt → List Word
  | .rd _ x => setHostVar vars x rdata
  | .rdTrace _ _ x => setHostVar vars x rdata
  | .wr _ _ => vars
  | .wrCmd _ => vars
  | .label _ => vars
  | .ifGoto _ _ => vars

/-- The place of a label in a program. R84 and R85 do not say where a branch goes when the label stands more than once
(two WAIT expansions may be given one number) or not at all; here it goes to the first one, or past the end: DESIGN
CHOICE, log entry 15. -/
def labelPlace (prog : List HostStmt) (l : Nat) : Nat := prog.findIdx (· == HostStmt.label l)

/-- The statement after this one. -/
def HostStmt.pcAfter (prog : List HostStmt) (pc : Nat) (vars : List Word) : HostStmt → Nat
  | .ifGoto c l => if c.eval vars then labelPlace prog l else pc + 1
  | .wr _ _ => pc + 1
  | .wrCmd _ => pc + 1
  | .rd _ _ => pc + 1
  | .rdTrace _ _ _ => pc + 1
  | .label _ => pc + 1

/-- A HOST and the block it drives. -/
structure Bench where
  host : HostAgent
  block : State
  deriving DecidableEq, Repr

/-- The HOST after one cycle in which the block's read data was `rdata`. -/
def HostAgent.advance (h : HostAgent) (rdata : Word) : HostAgent :=
  match h.prog[h.pc]? with
  | some st => { h with pc := st.pcAfter h.prog h.pc h.vars, vars := st.varsAfter h.vars rdata }
  | none => h

/-- What the HOST presents in the coming cycle; a HOST past its program presents nothing. -/
def HostAgent.present (h : HostAgent) : PortIn :=
  match h.prog[h.pc]? with
  | some st => st.access h.vars
  | none => PortIn.idle

/-- One cycle of the HOST and the block together. -/
def Bench.cycle (y : Bench) : Host.Outcome Bench Fault Refusal :=
  match step { y.block with inputs := [y.host.present] } with
  | .next s => .next { host := y.host.advance s.port.rdata, block := s }
  | .fault r => .fault r
  | .refused r => .refused r

/-- The run of a HOST program is over: the HOST makes no further access and the block is quiescent (R293). R293 does not say
how the first is told; here the HOST must be past its program, so that one with only labels and branches ahead, or in a
loop without accesses, is not over yet: DESIGN CHOICE, log entry 20. -/
def Bench.over (y : Bench) : Bool := decide (y.host.prog.length ≤ y.host.pc) && decide (y.block.phase = .idle)

end Sys2Proof.Machine
end

