-- ==== Sys2Proof/Machine/Outcome.lean ====
section
/-! DEFINITION. The outcome function `Exec(w, A, B)` of rule R104, as one function of the command and its operands,
and the replay of a trace (R106). The meanings of Dispatch.lean write these outcomes. -/

namespace Sys2Proof.Machine

/-- The outcome of an operation on the operand patterns (R104). -/
def outcomeOf (i : Instr) (a b : Word) : CmdOutcome :=
  match i with
  | .add => addOutcome a b
  | .sub => subOutcome a b
  | .mul => mulOutcome a b
  | .div => divOutcome a b
  | .and => andOutcome a b
  | .or => orOutcome a b
  | .even => evenOutcome a
  | .popcnt => popcntOutcome a
  | .modp2 => modp2Outcome a b
  | .ispow2 => ispow2Outcome a
  | .pow => powOutcome a b

/-- `Exec(w, A, B)` (R104). -/
def commandOutcome (w a b : Word) : CmdOutcome :=
  match decode w with
  | .ok i => outcomeOf i a b
  | .error _ => raiseError .illegalOperation

/-- The sum over the entries of `OUT * 2^POS` (R142, R145, R193). -/
def outSum (es : List TraceEntry) : Nat :=
  (es.map fun e => if e.outField then 2 ^ e.posField.toNat else 0).sum

/-- `fold` of an ADD trace (R142) and of an AND or OR trace (R193). -/
def replayBits (es : List TraceEntry) : Word := wrap32 (outSum es)

/-- `fb`, COUT of entry 0 (R145). -/
def finalCarry (es : List TraceEntry) : Bool := (es.head?.map TraceEntry.coutField).getD false

/-- `fold` of a SUB trace of `W` entries (R145). -/
def replaySub (es : List TraceEntry) : Word :=
  wrap32 ((outSum es : Int) - (if finalCarry es then (2 ^ es.length : Int) else 0))

/-- TV2 of the last entry (R165). -/
def lastTv2 (es : List TraceEntry) : Word := (es.getLast?.map TraceEntry.tv2).getD 0

/-- TV3 of the last entry (R162, R165). -/
def lastTv3 (es : List TraceEntry) : Word := (es.getLast?.map TraceEntry.tv3).getD 0

/-- The `ADD32`-sum of TV2 over all entries (R162). -/
def sumTv2 (es : List TraceEntry) : Word := es.foldl (fun acc e => add32 acc e.tv2) 0

/-- COUNT of the last entry (R198). -/
def lastCount (es : List TraceEntry) : Word := (es.getLast?.map fun e => e.countField.setWidth 32).getD 0

/-- OUT of the last entry (R195, R200). -/
def lastOut (es : List TraceEntry) : Word := (es.getLast?.map fun e => boolWord e.outField).getD 0

/-- The replay function of each operation that writes a trace; POW writes none (R106, R232). -/
def replay (i : Instr) (es : List TraceEntry) : Option Word :=
  match i with
  | .add => some (replayBits es)
  | .sub => some (replaySub es)
  | .mul => some (lastTv3 es)
  | .div => some (lastTv3 es)
  | .and => some (replayBits es)
  | .or => some (replayBits es)
  | .even => some (lastOut es)
  | .popcnt => some (lastCount es)
  | .modp2 => some (lastTv3 es)
  | .ispow2 => some (lastOut es)
  | .pow => none

end Sys2Proof.Machine
end

