-- ==== Sys2Proof/Safety.lean ====
section
/-! DEFINITION. What claims about the block speak of: its legal states, what a completion leaves unchanged, the
duties of the HOST (R292), and the arithmetic readings of the trace rules. -/

namespace Sys2Proof.Machine

/-- The legal combinations of STATUS (R25), with the codes of R250. -/
def StatusLegal (t : Status) : Prop :=
  (t.busy = true → t.done = false) ∧ (t.err = false ↔ t.errcode = 0) ∧
    (t.err = true → t.unsup = false) ∧ t.errcode.toNat ≤ 3

/-- RUN exactly when STATUS.BUSY = 1 (R36), with time left to the completion edge exactly then (R103). -/
def PhaseMatches (s : State) : Prop :=
  (s.phase = .run ↔ s.status.busy = true) ∧ (0 < s.remaining ↔ s.status.busy = true)

/-- What accept leaves until completion (R101): LAT_OP and the CMD readback are the code of the latched word, and
ERR, ERRCODE and UNSUP are clear. -/
def RunningConsistent (s : State) : Prop :=
  s.status.busy = true →
    s.latOp = opField s.latW ∧ s.opLast = opField s.latW ∧
      s.status.err = false ∧ s.status.errcode = 0 ∧ s.status.unsup = false

/-- "BUSY = 0 and DONE = 0 together occur only between a reset and the next accept" (R25): the registers that only
the ENGINE writes still hold their reset values (R40). -/
def FreshAfterReset (s : State) : Prop :=
  s.status.busy = false → s.status.done = false →
    s.status = Status.zero ∧ s.opLast = 0 ∧ s.result = 0 ∧ s.result2 = 0 ∧ s.traceHdr = TraceHdr.zero

/-- The outcome the registers hold is `o`, for the command word `w` (R103). -/
def HoldsOutcome (s : State) (w : Word) (o : CmdOutcome) : Prop :=
  s.result = o.result ∧ s.result2 = o.result2 ∧
    s.traceHdr = { op := opField w, padw := o.padw, len := o.len } ∧
    (∀ k : Fin 64, ∀ e, o.entries[k.val]? = some e → s.trace[k] = e) ∧
    s.status.err = o.err ∧ s.status.errcode = o.code ∧ s.status.unsup = o.unsup

/-- "DONE = 1 means that the last accepted command has completed and that RESULT, RESULT2, TRACE_HDR, the trace
buffer, ERR, ERRCODE and UNSUP all belong to it" (R287 (b), R27). -/
def OutcomeBelongs (s : State) : Prop :=
  s.status.done = true →
    s.opLast = opField s.latW ∧ HoldsOutcome s s.latW (commandOutcome s.latW s.latA s.latB)

/-- A control word as R34 and R35 allow it: bits 15:10, 23:22 and 31:30 are 0 (U11), and KIND is at most 12 (U12). -/
def ControlWordLegal (w : Word) : Prop :=
  w.extractLsb' 10 6 = 0 ∧ w.extractLsb' 22 2 = 0 ∧ w.extractLsb' 30 2 = 0 ∧ (w.extractLsb' 0 4).toNat ≤ 12

/-- Every valid entry of the trace buffer holds a control word that R34 and R35 allow, also after an UNSUP outcome. -/
def TraceControlLegal (s : State) : Prop :=
  ∀ k : Fin 64, k.val < s.traceHdr.len.toNat → ControlWordLegal (s.trace[k]).tw0

/-- The invariant of the block. -/
structure BlockInvariant (s : State) : Prop where
  legal : StatusLegal s.status
  phase : PhaseMatches s
  running : RunningConsistent s
  fresh : FreshAfterReset s
  belongs : OutcomeBelongs s
  control : TraceControlLegal s

/-- A completion has set DONE, cleared BUSY and left the ENGINE idle (R103). -/
def Completed (t : State) : Prop := t.status.busy = false ∧ t.status.done = true ∧ t.phase = .idle

/-- STATUS after a command that ended without error on supported operands: ERR = 0, ERRCODE = 0, UNSUP = 0. -/
def EndedNormally (t : State) : Prop :=
  t.status.err = false ∧ t.status.errcode = 0 ∧ t.status.unsup = false

/-- What a completion does not write (R103): OPA, OPB, the CMD readback, DROP, the latches, every trace entry at `len`
or above, and the model's own record of the ports. The byte view of the window says the same of the bytes of OPA, OPB
and CMD, and every trace entry at `len` or above reads 0 (R33). The working registers, whose values the spec leaves
open (R36), are left to `KeepsWorkingRegisters`. -/
def CompletionFrame (s t : State) (len : Nat) : Prop :=
  t.opa = s.opa ∧ t.opb = s.opb ∧ t.opLast = s.opLast ∧ t.status.drop = s.status.drop ∧
    t.latOp = s.latOp ∧ t.latW = s.latW ∧ t.latA = s.latA ∧ t.latB = s.latB ∧
    t.resetSeen = s.resetSeen ∧ t.inputs = s.inputs ∧ t.port = s.port ∧ t.draws = s.draws ∧
    (∀ k : Fin 64, len ≤ k.val → t.trace[k] = s.trace[k]) ∧
    (∀ k : Fin 64, ∀ j : Fin 4, len ≤ k.val → readTarget t (.trace k j) = 0) ∧
    (∀ a : Addr, a.toNat < 0x00C → windowByte t a = windowByte s a)

/-- The working registers are as they were: the model's choice, log entry 8 (R36 leaves them open). -/
def KeepsWorkingRegisters (s t : State) : Prop :=
  t.workAcc = s.workAcc ∧ t.workRem = s.workRem ∧ t.workCount = s.workCount ∧ t.workF64 = s.workF64

/-- `t` with the working registers of `s`, for claims that leave those registers open (R36). -/
def withWorkingOf (s t : State) : State :=
  { t with workAcc := s.workAcc, workRem := s.workRem, workCount := s.workCount, workF64 := s.workF64 }

/-- TRACE_HDR and the valid entries of the trace buffer after the completion of the command latched in `s`: padding
width `padw`, LEN the number of `entries`, entry `k` of the buffer the entry `k` of the list (R103, R32, R33). -/
def TraceIs (s t : State) (padw : Nat) (entries : List TraceEntry) : Prop :=
  t.traceHdr.op = opField s.latW ∧ t.traceHdr.padw.toNat = padw ∧ t.traceHdr.len.toNat = entries.length ∧
    ∀ k : Fin 64, ∀ e, entries[k.val]? = some e → t.trace[k] = e

/-- `t` is what a completion of the command latched in `s` leaves when it ends without error on supported operands:
the results, STATUS, the trace, and everything else unchanged (R103, R104). -/
def CompletesNormally (s t : State) (result result2 : Word) (padw : Nat) (entries : List TraceEntry) : Prop :=
  t.result = result ∧ t.result2 = result2 ∧ Completed t ∧ EndedNormally t ∧ TraceIs s t padw entries ∧
    CompletionFrame s t entries.length

/-- `t` is what a completion of the command latched in `s` leaves when it ends with the error of code `code` (R252). -/
def CompletesWithError (s t : State) (code : BitVec 3) : Prop :=
  t.result = 0 ∧ t.result2 = 0 ∧ Completed t ∧ t.status.err = true ∧ t.status.errcode = code ∧
    t.status.unsup = false ∧ TraceIs s t 0 [] ∧ CompletionFrame s t 0

/-- `t` is what a completion of the command latched in `s` leaves when its operands are unsupported (R166): UNSUP = 1,
no error, and the three open functions of `(op, A, B)`; everything else as any completion leaves it. -/
def CompletesUnsupported (s t : State) (op : OpCode) : Prop :=
  t.result = Config.unspecResult op s.latA s.latB ∧ t.result2 = Config.unspecResult2 op s.latA s.latB ∧
    Completed t ∧ t.status.err = false ∧ t.status.errcode = 0 ∧ t.status.unsup = true ∧
    TraceIs s t (Config.unspecPadw op s.latA s.latB).toNat
      ((List.range (Config.unspecLen op s.latA s.latB).toNat).map (unspecEntry op s.latA s.latB)) ∧
    CompletionFrame s t (Config.unspecLen op s.latA s.latB).toNat

/-- What a HOST write of `v` to the mapped offset `a`, other than CMD, does at the edge that ends its cycle, beside the
model's record of the cycle (R21, R22, R25, R64, R67): OPA and OPB take the value, STATUS clears DROP exactly on bit 4, a
read-only register ignores it. -/
def afterWrite (s : State) (a : Addr) (v : Word) (rest : List PortIn) : State :=
  { s with
    opa := if a = 0x000 then v else s.opa
    opb := if a = 0x004 then v else s.opb
    status := if a = 0x00C then { s.status with drop := s.status.drop && !v.getLsbD 4 } else s.status
    inputs := rest
    port := { rdata := 0, err := false, busy := s.status.busy, done := s.status.done }
    draws := s.draws + 1 }

/-- The HOST's next scheduled access is `p`, presented while reset is not asserted and after the first reset edge. -/
def Presents (s : State) (p : PortIn) (rest : List PortIn) : Prop :=
  s.resetSeen = true ∧ s.inputs = p :: rest ∧ p.rst = false

/-- A bit as a number. -/
def bitNat (b : Bool) : Nat := if b then 1 else 0

/-- A control word by the bit places of R34. -/
def controlWord (kind pos a b cin out cout test count : Nat) : Word :=
  BitVec.ofNat 32 (kind + 2 ^ 4 * pos + 2 ^ 16 * a + 2 ^ 17 * b + 2 ^ 18 * cin + 2 ^ 19 * out + 2 ^ 20 * cout
    + 2 ^ 21 * test + 2 ^ 24 * count)

/-- Bit `p` of an unsigned number. -/
def natBit (n p : Nat) : Nat := n / 2 ^ p % 2

/-- The carry into position `p` of the sum of two unsigned numbers. -/
def carryInto (a b p : Nat) : Nat := (a % 2 ^ p + b % 2 ^ p) / 2 ^ p

/-- The borrow into position `p` of the difference of two unsigned numbers. -/
def borrowInto (a b p : Nat) : Nat := bitNat (decide (a % 2 ^ p < b % 2 ^ p))

/-- The entry for position `p` of a column addition of the zero-padded patterns. -/
def addEntry (a b p : Nat) : TraceEntry :=
  { tw0 := controlWord 0 p (natBit a p) (natBit b p) (carryInto a b p) (natBit (a + b) p)
      (carryInto a b (p + 1)) 0 0,
    tv1 := 0, tv2 := 0, tv3 := 0 }

/-- The entry for position `p` of a column subtraction of the zero-padded patterns. -/
def subEntry (a b p : Nat) : TraceEntry :=
  { tw0 := controlWord 1 p (natBit a p) (natBit b p) (borrowInto a b p)
      ((natBit a p + natBit b p + borrowInto a b p) % 2) (borrowInto a b (p + 1)) 0 0,
    tv1 := 0, tv2 := 0, tv3 := 0 }

/-- The entry for multiplier bit `k`: the partial product, what it contributes, the running sum. -/
def mulEntry (a b k : Nat) : TraceEntry :=
  { tw0 := controlWord 2 k 0 (natBit b k) 0 (natBit b k) 0 0 0,
    tv1 := wrap32 (a * 2 ^ k : Nat), tv2 := wrap32 (natBit b k * (a * 2 ^ k) : Nat),
    tv3 := wrap32 (a * (b % 2 ^ (k + 1)) : Nat) }

/-- The brought-down remainder at dividend bit `p`: the remainder of the bits above `p`, doubled, plus bit `p`. -/
def broughtDown (a b p : Nat) : Nat := 2 * (a / 2 ^ (p + 1) % b) + natBit a p

/-- The entry for dividend bit `p`: the brought-down remainder, the remainder and the quotient of the bits from `p`
up. -/
def divEntry (a b p : Nat) : TraceEntry :=
  { tw0 := controlWord 3 p (natBit a p) 0 0 (bitNat (decide (b ≤ broughtDown a b p))) 0
      (bitNat (decide (b ≤ broughtDown a b p))) 0,
    tv1 := wrap32 (broughtDown a b p : Nat), tv2 := wrap32 (a / 2 ^ p % b : Nat),
    tv3 := wrap32 (a / 2 ^ p / b : Nat) }

/-- The working value of the population count after `i` iterations (R196). -/
def popValue (a : Word) : Nat → Word
  | 0 => a
  | i + 1 => popValue a i &&& (popValue a i - 1)

/-- The number of 1 bits of a pattern. -/
def popCount (a : Word) : Nat := ((List.range 32).filter a.getLsbD).length

/-- Entry `i` of the population count trace: one entry per iteration, then the complete entry (R197). -/
def popEntry (a : Word) (i : Nat) : TraceEntry :=
  if i < popCount a then
    { tw0 := controlWord 7 0 0 0 0 0 0 0 (i + 1), tv1 := popValue a i, tv2 := popValue a i - 1,
      tv3 := popValue a (i + 1) }
  else { tw0 := controlWord 8 0 0 0 0 0 0 0 (popCount a), tv1 := a, tv2 := 0, tv3 := 0 }

/-- The recursion of R231 on exponents of at most `n` bits: `P(0) = 1.0`, `P(m) = fmul(P(m >> 1), P(m >> 1))`, then
`fmul(that, base)` when `m` is odd. -/
def powRec (base : F64) : (n m : Nat) → F64
  | 0, _ => f64One
  | n + 1, m =>
    if m = 0 then f64One
    else if m % 2 = 1 then fmul (fmul (powRec base n (m / 2)) (powRec base n (m / 2))) base
    else fmul (powRec base n (m / 2)) (powRec base n (m / 2))

/-- The rational value of a finite binary64 pattern (R230); 0 for infinities and NaN. -/
def f64Value (x : F64) : Rat :=
  match fvalue x with
  | .zero _ => 0
  | .finite sign m e => (if sign then -1 else 1) * (m : Rat) * (2 : Rat) ^ e
  | .infinite _ => 0
  | .nan => 0

/-- A pattern with a biased exponent below 2047: a zero, a subnormal or a normal (R230). -/
def isFinite (x : F64) : Bool := decide (expField x < 2047)

/-- A NaN pattern: exponent 2047 and a fraction that is not 0 (R230). -/
def isNan (x : F64) : Bool := decide (expField x = 2047) && decide (fracField x ≠ 0)

/-- `r` is the rational `v` rounded to nearest, ties to even, with overflow to infinity (R230): below the midpoint
between the largest finite value and `2^1024` no finite pattern is nearer, and a tie goes to the even fraction; from
there on `r` is an infinity. -/
def RoundsTo (v : Rat) (r : F64) : Prop :=
  (|v| < 2 ^ 1024 - 2 ^ 970 →
      isFinite r = true ∧
        ∀ z : F64, isFinite z = true →
          |f64Value r - v| ≤ |f64Value z - v| ∧
            (|f64Value z - v| = |f64Value r - v| → f64Value z = f64Value r ∨ r.getLsbD 0 = false)) ∧
    (2 ^ 1024 - 2 ^ 970 ≤ |v| → expField r = 2047 ∧ fracField r = 0)

/-- The HOST keeps its duties in this cycle (R286, R292): no CMD write and no read of an outcome register while
BUSY = 1. -/
def HostDutiful (s : State) (p : PortIn) : Prop :=
  p.sel = true → s.status.busy = true →
    ∀ t, mapAddr p.addr = some t →
      if p.we then t ≠ .cmd else t.holdsOutcome = false

/-- The block is quiescent and nothing is scheduled any more: the run is over (R293). R293 does not say how it is told that
the HOST makes no further access; here the schedule must be empty, so that one with only idle cycles left is not over yet:
DESIGN CHOICE, log entry 20. -/
def RunOver (s : State) : Prop := s.inputs = [] ∧ s.phase = .idle

end Sys2Proof.Machine
end

