-- ==== Sys2Proof/Certificates/Slice0/Obligations.lean ====
section
/-! DEFINITION. The statements for the provers. Each docstring names the rule it formalises. -/

open Sys2Proof Sys2Proof.Machine

/-! ## The operations -/

/-- R140. ADD, every state: RESULT = wrap32(a + b), RESULT2 = 0, no error, the ADD trace,
and the frame of a completion. -/
def Obligations.AddCompletesWithWrappedSum : Prop :=
  decode 0x00000000 = .ok .add ∧
    ∀ s : State, ∃ t, exec .add s = .next t ∧
      CompletesNormally s t (wrap32 (s32 s.latA + s32 s.latB)) 0
        (max (bitLength s.latA) (bitLength s.latB) + 1) (addTrace s.latA s.latB)

/-- R141. The ADD trace is the column addition of the zero-padded patterns, most-significant position first. -/
def Obligations.AddTraceIsColumnAddition : Prop :=
  ∀ a b : Word, ∀ w : Nat, w = max (bitLength a) (bitLength b) + 1 →
    (addTrace a b).length = w ∧
      ∀ p, p < w → (addTrace a b)[w - 1 - p]? = some (addEntry (u32 a) (u32 b) p)

/-- R142. Folding the ADD trace gives RESULT, and the final carry is 0. -/
def Obligations.AddReplayGivesResult : Prop :=
  ∀ a b : Word, replayBits (addTrace a b) = (addOutcome a b).result ∧ finalCarry (addTrace a b) = false

/-- R143. SUB, every state: RESULT = wrap32(a - b), RESULT2 = 0, no error, the SUB trace,
and the frame of a completion. -/
def Obligations.SubCompletesWithWrappedDifference : Prop :=
  decode 0x00000001 = .ok .sub ∧
    ∀ s : State, ∃ t, exec .sub s = .next t ∧
      CompletesNormally s t (wrap32 (s32 s.latA - s32 s.latB)) 0
        (max (bitLength s.latA) (bitLength s.latB) + 1) (subTrace s.latA s.latB)

/-- R144. The SUB trace is the column subtraction of the zero-padded patterns, most-significant position first. -/
def Obligations.SubTraceIsColumnSubtraction : Prop :=
  ∀ a b : Word, ∀ w : Nat, w = max (bitLength a) (bitLength b) + 1 →
    (subTrace a b).length = w ∧
      ∀ p, p < w → (subTrace a b)[w - 1 - p]? = some (subEntry (u32 a) (u32 b) p)

/-- R145. Folding the SUB trace gives RESULT, and the final borrow is 1 exactly when `u32(A) <u u32(B)`. -/
def Obligations.SubReplayGivesResult : Prop :=
  ∀ a b : Word, replaySub (subTrace a b) = (subOutcome a b).result ∧
    finalCarry (subTrace a b) = decide (u32 a < u32 b)

/-- R160. MUL, every state: on operands that are not negative RESULT = wrap32(a * b) with the MUL trace; otherwise
the unsupported outcome. In both cases the frame of a completion. -/
def Obligations.MulCompletes : Prop :=
  decode 0x00000002 = .ok .mul ∧
    ∀ s : State,
      (0 ≤ s32 s.latA → 0 ≤ s32 s.latB →
        ∃ t, exec .mul s = .next t ∧
          CompletesNormally s t (wrap32 (s32 s.latA * s32 s.latB)) 0 8 (mulTrace s.latA s.latB)) ∧
      (s32 s.latA < 0 ∨ s32 s.latB < 0 → ∃ t, exec .mul s = .next t ∧ CompletesUnsupported s t 2)

/-- R161. The MUL trace: one entry per multiplier bit, with the partial product, its contribution, the running sum. -/
def Obligations.MulTraceIsShiftAndAdd : Prop :=
  ∀ a b : Word, (mulTrace a b).length = max 8 (bitLength b) ∧
    ∀ k, k < max 8 (bitLength b) → (mulTrace a b)[k]? = some (mulEntry (u32 a) (u32 b) k)

/-- R162. The last running sum and the ADD32-sum of the contributions are RESULT, the contributing entries are as
many as the set bits of `b`, and every multiplier bit at or above the trace's length is 0. -/
def Obligations.MulReplayGivesResult : Prop :=
  ∀ a b : Word, 0 ≤ s32 a → 0 ≤ s32 b →
    lastTv3 (mulTrace a b) = (mulOutcome a b).result ∧ sumTv2 (mulTrace a b) = (mulOutcome a b).result ∧
      ((mulTrace a b).filter TraceEntry.outField).length = popCount b ∧
      ∀ p, (mulTrace a b).length ≤ p → bitAt b p = false

/-- R163. DIV, every state: DivisionByZero for `b = 0` whatever `a`; the unsupported outcome for a negative operand
otherwise; else RESULT = floor(a / b), RESULT2 = the remainder, with the DIV trace. In each case the frame
of a completion. -/
def Obligations.DivCompletes : Prop :=
  decode 0x00000003 = .ok .div ∧
    ∀ s : State,
      (s32 s.latB = 0 → ∃ t, exec .div s = .next t ∧ CompletesWithError s t 1) ∧
      (s32 s.latB ≠ 0 → (s32 s.latA < 0 ∨ s32 s.latB < 0) →
        ∃ t, exec .div s = .next t ∧ CompletesUnsupported s t 3) ∧
      (0 ≤ s32 s.latA → 0 < s32 s.latB →
        ∃ t, exec .div s = .next t ∧
          CompletesNormally s t (wrap32 (s32 s.latA / s32 s.latB))
            (wrap32 (s32 s.latA - s32 s.latB * (s32 s.latA / s32 s.latB))) (bitLength s.latA)
            (divTrace s.latA s.latB))

/-- R164. The DIV trace on the supported domain: entry `N-1-p` is the long-division step at dividend bit `p`. -/
def Obligations.DivTraceIsLongDivision : Prop :=
  ∀ a b : Word, 0 ≤ s32 a → 0 < s32 b →
    (divTrace a b).length = bitLength a ∧
      ∀ p, p < bitLength a → (divTrace a b)[bitLength a - 1 - p]? = some (divEntry (u32 a) (u32 b) p)

/-- R165. The last entry of the DIV trace holds RESULT (the quotient) in TV3 and RESULT2 (the remainder) in TV2. -/
def Obligations.DivReplayGivesBothResults : Prop :=
  ∀ a b : Word, 0 ≤ s32 a → 0 < s32 b →
    lastTv3 (divTrace a b) = (divOutcome a b).result ∧ lastTv2 (divTrace a b) = (divOutcome a b).result2

/-- R190, R191. AND and OR, every state: RESULT is the bitwise result, RESULT2 = 0, no error, the trace, and
the frame of a completion. -/
def Obligations.AndOrCompleteWithBitwiseResult : Prop :=
  decode 0x00000004 = .ok .and ∧ decode 0x00000005 = .ok .or ∧
    ∀ s : State,
      (∃ t, exec .and s = .next t ∧
        CompletesNormally s t (s.latA &&& s.latB) 0 (max (bitLength s.latA) (bitLength s.latB))
          (andOutcome s.latA s.latB).entries) ∧
      (∃ t, exec .or s = .next t ∧
        CompletesNormally s t (s.latA ||| s.latB) 0 (max (bitLength s.latA) (bitLength s.latB))
          (orOutcome s.latA s.latB).entries)

/-- R192. The AND and OR traces: one entry per position of the padded patterns, most-significant first, with the two
input bits and the truth-table output. -/
def Obligations.AndOrTracesAreTruthTables : Prop :=
  ∀ a b : Word, ∀ w : Nat, w = max (bitLength a) (bitLength b) →
    (andOutcome a b).entries.length = w ∧ (orOutcome a b).entries.length = w ∧
      ∀ p, p < w →
        (andOutcome a b).entries[w - 1 - p]? = some
          { tw0 := controlWord 4 p (natBit (u32 a) p) (natBit (u32 b) p) 0
              (natBit (u32 a) p * natBit (u32 b) p) 0 0 0, tv1 := 0, tv2 := 0, tv3 := 0 } ∧
        (orOutcome a b).entries[w - 1 - p]? = some
          { tw0 := controlWord 5 p (natBit (u32 a) p) (natBit (u32 b) p) 0
              (max (natBit (u32 a) p) (natBit (u32 b) p)) 0 0 0, tv1 := 0, tv2 := 0, tv3 := 0 }

/-- R193. Folding an AND or OR trace gives RESULT. -/
def Obligations.AndOrReplayGivesResult : Prop :=
  ∀ a b : Word, replayBits (andOutcome a b).entries = (andOutcome a b).result ∧
    replayBits (orOutcome a b).entries = (orOutcome a b).result

/-- R194, R195. EVEN, every state: RESULT is 1 exactly when `n` is even, else 0, with its one-entry trace and
the frame of a completion. -/
def Obligations.EvenCompletesWithParity : Prop :=
  decode 0x00000006 = .ok .even ∧
    ∀ s : State, ∃ t, exec .even s = .next t ∧
      CompletesNormally s t (if s32 s.latA % 2 = 0 then 1 else 0) 0 (bitLength s.latA)
        [{ tw0 := controlWord 6 0 (natBit (u32 s.latA) 0) 0 0 (1 - natBit (u32 s.latA) 0) 0 0 0,
           tv1 := s.latA, tv2 := 1, tv3 := wrap32 (u32 s.latA % 2 : Nat) }] ∧
      lastOut (evenOutcome s.latA).entries = t.result

/-- R196, R197. POPCNT, every state: RESULT is the number of 1 bits of the pattern, with one trace entry per
iteration and the complete entry, and the frame of a completion. -/
def Obligations.PopcntCompletesWithBitCount : Prop :=
  decode 0x00000007 = .ok .popcnt ∧
    ∀ s : State, ∃ t, exec .popcnt s = .next t ∧
      CompletesNormally s t (wrap32 (popCount s.latA)) 0 (bitLength s.latA)
        ((List.range (popCount s.latA + 1)).map (popEntry s.latA))

/-- R198. The POPCNT trace replays: COUNT of the last entry and LEN - 1 are RESULT; TV3 of an iteration is TV1 of
the next one, and 0 in the last one; TV1 of entry 0 is `A` when `A` is not 0. -/
def Obligations.PopcntReplayGivesResult : Prop :=
  ∀ a : Word, ∀ es, es = (popcntOutcome a).entries →
    lastCount es = (popcntOutcome a).result ∧ wrap32 ((es.length : Int) - 1) = (popcntOutcome a).result ∧
      (∀ i e f, es[i]? = some e → es[i + 1]? = some f → e.kindField = 7 →
        (f.kindField = 7 → e.tv3 = f.tv1) ∧ (f.kindField = 8 → e.tv3 = 0)) ∧
      (a ≠ 0 → ∀ e, es[0]? = some e → e.tv1 = a)

/-- R199, R200, with R116: ISPOW2, every state: RESULT is 1 exactly for the powers `2^0` to `2^30`, else 0, with its
two-entry trace and the frame of a completion. -/
def Obligations.Ispow2CompletesWithPowerTest : Prop :=
  decode 0x00000009 = .ok .ispow2 ∧
    ∀ s : State, ∃ t, exec .ispow2 s = .next t ∧
      (t.result = 1 ∨ t.result = 0) ∧ (t.result = 1 ↔ ∃ k, k ≤ 30 ∧ u32 s.latA = 2 ^ k) ∧
      CompletesNormally s t t.result 0 (bitLength s.latA)
        [{ tw0 := controlWord 9 0 0 0 0 0 0 (bitNat (decide (0 < s32 s.latA))) 0,
           tv1 := s.latA, tv2 := s.latA - 1, tv3 := s.latA &&& (s.latA - 1) },
         { tw0 := controlWord 10 0 0 0 0 t.result.toNat 0 0 0, tv1 := s.latA, tv2 := 0, tv3 := 0 }] ∧
      lastOut (ispow2Outcome s.latA).entries = t.result

/-- R201, R202. MODP2, every state: for a modulus `2^k`, `k` in 0..30, RESULT is the floored modulus, with its
two-entry trace; for every other modulus it ends with InvalidDivisor. In both cases the
frame of a completion. -/
def Obligations.Modp2CompletesWithFlooredModulus : Prop :=
  decode 0x00000008 = .ok .modp2 ∧
    ∀ s : State,
      ((∃ k, k ≤ 30 ∧ u32 s.latB = 2 ^ k) →
        ∃ t, exec .modp2 s = .next t ∧
          CompletesNormally s t (wrap32 (s32 s.latA % s32 s.latB)) 0
            (max (bitLength s.latA) (bitLength s.latB))
            [{ tw0 := controlWord 11 0 0 0 0 0 0 1 0, tv1 := s.latB, tv2 := s.latB - 1, tv3 := 0 },
             { tw0 := controlWord 12 0 0 0 0 0 0 0 0, tv1 := s.latA, tv2 := s.latB - 1,
               tv3 := s.latA &&& (s.latB - 1) }] ∧
          lastTv3 (modp2Outcome s.latA s.latB).entries = t.result) ∧
      ((¬ ∃ k, k ≤ 30 ∧ u32 s.latB = 2 ^ k) →
        ∃ t, exec .modp2 s = .next t ∧ CompletesWithError s t 2)

/-- R231, R232. POW, every state: RESULT2:RESULT is the binary64 value of the recursion `P` on the exponent's
magnitude, over the base or, for a negative exponent, its reciprocal; no trace, no error, and the frame of a
completion. -/
def Obligations.PowCompletesWithSquaringRecursion : Prop :=
  decode 0x0000000A = .ok .pow ∧
    ∀ s : State, ∀ v : F64,
      v = powRec (if s32 s.latB < 0 then fdiv f64One (f64OfInt (s32 s.latA)) else f64OfInt (s32 s.latA)) 32
        (s32 s.latB).natAbs →
      ∃ t, exec .pow s = .next t ∧
        CompletesNormally s t (v.extractLsb' 0 32) (v.extractLsb' 32 32) 0 []

/-- R231, corner cases over every operand: exponent 0 gives 1.0 for every base; base 0 gives +0 for a positive and
+infinity for a negative exponent; base 1 gives 1.0. -/
def Obligations.PowZeroAndOneCornerCases : Prop :=
  (∀ a : Word, powBits a 0 = 0x3FF0000000000000) ∧
    (∀ b : Word, 0 < s32 b → powBits 0 b = 0x0000000000000000) ∧
    (∀ b : Word, s32 b < 0 → powBits 0 b = 0x7FF0000000000000) ∧
    (∀ b : Word, powBits 1 b = 0x3FF0000000000000)

/-- R233 (a), (b). POW never gives a NaN, and the sign bit is 1 exactly when `a < 0` and `n` is odd. -/
def Obligations.PowSignRuleAndNoNan : Prop :=
  ∀ a b : Word, isNan (powBits a b) = false ∧
    (signField (powBits a b) = true ↔ s32 a < 0 ∧ s32 b % 2 = 1)

/-- R233 (c). POW is exact for `n >= 0` whenever `|a|^n <= 2^53`. -/
def Obligations.PowExactUpToTwoToFiftyThree : Prop :=
  ∀ a b : Word, 0 ≤ s32 b → (s32 a).natAbs ^ (s32 b).toNat ≤ 2 ^ 53 →
    isFinite (powBits a b) = true ∧ f64Value (powBits a b) = (s32 a : Rat) ^ (s32 b).toNat

/-- R230. `f64(i)` is exact for every 32-bit signed integer, and `f64(0)` is +0. -/
def Obligations.IntegerToBinary64IsExact : Prop :=
  (∀ v : Word, isFinite (f64OfInt (s32 v)) = true ∧ f64Value (f64OfInt (s32 v)) = (s32 v : Rat)) ∧
    f64OfInt 0 = 0

/-- R230. `fmul` on finite patterns rounds the exact product to nearest, ties to even, with gradual underflow and
overflow to infinity; its sign is the exclusive-or of the signs; infinity times a value that is not zero or NaN is
infinity. -/
def Obligations.MultiplicationRoundsToNearestEven : Prop :=
  (∀ x y : F64, isFinite x = true → isFinite y = true →
    RoundsTo (f64Value x * f64Value y) (fmul x y) ∧
      signField (fmul x y) = (signField x ^^ signField y)) ∧
    ∀ x y : F64, expField x = 2047 → fracField x = 0 → isNan y = false →
      (isFinite y = true → f64Value y ≠ 0) →
      expField (fmul x y) = 2047 ∧ fracField (fmul x y) = 0 ∧ fmul y x = fmul x y ∧
        signField (fmul x y) = (signField x ^^ signField y)

/-- R230. `fdiv` on finite patterns with a divisor that is not zero rounds the exact quotient to nearest, ties to
even; `fdiv(1.0, +0)` is +infinity. R230 states no sign of a quotient but that of `fdiv(1.0, +0)`: that the sign is the
exclusive-or of the signs, which decides which zero a zero quotient is, is the model's (IEEE 754; log entry 12,
PRESUMED). -/
def Obligations.DivisionRoundsToNearestEven : Prop :=
  (∀ x y : F64, isFinite x = true → isFinite y = true → f64Value y ≠ 0 →
    RoundsTo (f64Value x / f64Value y) (fdiv x y) ∧
      signField (fdiv x y) = (signField x ^^ signField y)) ∧
    fdiv 0x3FF0000000000000 0 = 0x7FF0000000000000

/-- R250, R251, R166. The error, its code and UNSUP of every command: an illegal word decides first, then the
operation's domain error, then UNSUP, then the normal outcome; an error leaves the results 0 and no trace. -/
def Obligations.OutcomeClassification : Prop :=
  ∀ w a b : Word, ∀ o, o = commandOutcome w a b →
    (wordLegal w = false → o = raiseError .illegalOperation) ∧
    (w = 3 → s32 b = 0 → o = raiseError .divisionByZero) ∧
    (w = 8 → (¬ ∃ k, k ≤ 30 ∧ u32 b = 2 ^ k) → o = raiseError .invalidDivisor) ∧
    (o.unsup = true ↔ (w = 2 ∧ (s32 a < 0 ∨ s32 b < 0)) ∨ (w = 3 ∧ s32 b ≠ 0 ∧ (s32 a < 0 ∨ s32 b < 0))) ∧
    (o.code = 3 ↔ wordLegal w = false) ∧ (o.code = 1 ↔ w = 3 ∧ s32 b = 0) ∧
    (o.code = 2 ↔ w = 8 ∧ ¬ ∃ k, k ≤ 30 ∧ u32 b = 2 ^ k) ∧
    o.code.toNat ≤ 3 ∧ (o.err = true ↔ o.code ≠ 0) ∧ (o.err = true → o.unsup = false) ∧
    (o.err = true → o.result = 0 ∧ o.result2 = 0 ∧ o.padw = 0 ∧ o.entries = [])

/-- R104, R5. Every outcome but the unsupported one has PADW and LEN in 0..33, and no outcome has more entries than
LEN can count. -/
def Obligations.TraceLengthBounds : Prop :=
  ∀ w a b : Word, ∀ o, o = commandOutcome w a b →
    o.entries.length ≤ 63 ∧ (o.unsup = false → o.padw.toNat ≤ 33 ∧ o.entries.length ≤ 33)

/-! ## The datapath units -/

/-- R112, R113. The carry and borrow loops end after at most 32 passes, with the wrapped sum and difference. -/
def Obligations.CarryAndBorrowLoopsEnd : Prop :=
  ∀ x y : Word,
    (∀ n, 32 ≤ n → addPasses n x y = add32 x y ∧ subPasses n x y = sub32 x y) ∧
      add32 x y = wrap32 ((u32 x : Int) + u32 y) ∧ add32 x y = wrap32 (s32 x + s32 y) ∧
      sub32 x y = wrap32 (s32 x - s32 y)

/-- R110, R111. The barrel shifter, bit by bit. -/
def Obligations.BarrelShifterBits : Prop :=
  ∀ x : Word, ∀ s : BitVec 5, ∀ i : Nat, i < 32 →
    bitAt (shl32 x s) i = (if s.toNat ≤ i then bitAt x (i - s.toNat) else false) ∧
      shl32 x s = wrap32 ((u32 x * 2 ^ s.toNat : Nat) : Int) ∧
      bitAt (sar32 x s) i = (if i + s.toNat ≤ 31 then bitAt x (i + s.toNat) else bitAt x 31)

/-- R114. `bitlength`: 32 for a negative pattern, 1 for 0, else one more than the index of the highest set bit. -/
def Obligations.BitLengthIsHighestSetBit : Prop :=
  ∀ v : Word, (s32 v < 0 → bitLength v = 32) ∧ (v = 0 → bitLength v = 1) ∧
    (0 < s32 v → 1 ≤ bitLength v ∧ bitLength v ≤ 31 ∧ bitAt v (bitLength v - 1) = true ∧
      ∀ i, bitLength v ≤ i → bitAt v i = false)

/-- R115. The full-adder and full-subtractor cells satisfy `x + y + c = o + 2*co` and `x - y - c = o - 2*bo`. -/
def Obligations.CellsSatisfyTheirIdentities : Prop :=
  ∀ x y c : Bool,
    bitNat x + bitNat y + bitNat c = bitNat (cellOut x y c) + 2 * bitNat (carryOut x y c) ∧
      (bitNat x : Int) - bitNat y - bitNat c = (bitNat (cellOut x y c) : Int) - 2 * bitNat (borrowOut x y c)

/-- R116. The power-of-two detector is 1 exactly for the 31 values `2^0 .. 2^30`. -/
def Obligations.PowerOfTwoDetector : Prop :=
  ∀ v : Word, isp2 v = true ↔ ∃ k, k ≤ 30 ∧ v = wrap32 (2 ^ k : Nat)

/-- The completion edge of every operation, and of an illegal word, leaves the working registers as they are. This is the
model's choice (log entry 8, DESIGN CHOICE): R36 leaves these registers open, and no HOST access shows them. -/
def Obligations.CompletionKeepsWorkingRegisters : Prop :=
  (∀ i : Instr, ∀ s : State, ∃ t, exec i s = .next t ∧ KeepsWorkingRegisters s t) ∧
    ∀ s : State, ∃ t, execIllegal s = .next t ∧ KeepsWorkingRegisters s t

/-! ## Encoding -/

/-- R83. A word is legal exactly when `w[31:4] = 0` and `w[3:0] <= 10`; the decoder gives an operation for exactly the
legal words, and an operation for exactly its own command word; an illegal word ends in IllegalOperation, never as
another operation. -/
def Obligations.DecodeAcceptsExactlyTheTable : Prop :=
  (∀ w : Word, wordLegal w = true ↔ u32 w / 16 = 0 ∧ u32 w % 16 ≤ 10) ∧
    (∀ w : Word, (∃ i, decode w = .ok i) ↔ wordLegal w = true) ∧
    (∀ w : Word, ∀ i : Instr, decode w = .ok i ↔ w = encode i) ∧
    ∀ w a b : Word, wordLegal w = false → commandOutcome w a b = raiseError .illegalOperation

/-- R81. The command words, as the operation map lists them, decode to their operations; the words of R83 next to
them do not decode. -/
def Obligations.ListedWordsDecode : Prop :=
  decode 0x00000000 = .ok .add ∧ decode 0x00000001 = .ok .sub ∧ decode 0x00000002 = .ok .mul ∧
    decode 0x00000003 = .ok .div ∧ decode 0x00000004 = .ok .and ∧ decode 0x00000005 = .ok .or ∧
    decode 0x00000006 = .ok .even ∧ decode 0x00000007 = .ok .popcnt ∧ decode 0x00000008 = .ok .modp2 ∧
    decode 0x00000009 = .ok .ispow2 ∧ decode 0x0000000A = .ok .pow ∧
    decode 0x0000000B = .error .opAboveTen ∧ decode 0x00000010 = .error .reservedBitSet

/-! ## The life of a command -/

/-- A step runs the decoded command: at the completion edge the step is `exec` of the decoded operation on the state
the HOST's access of the cycle left, whose latches are still those of the accept (R103, R104, R69). The spec speaks of
one edge left; that a running state with none left, which no run from reset reaches, takes the same step is the model's
choice (log entry 14, DESIGN CHOICE). A state made by `withFetchWord` runs exactly its word: `withFetchWord` is the
model's own device (log entry 4, DESIGN CHOICE). -/
def Obligations.StepRunsTheDecodedCommand : Prop :=
  (∀ s : State, ∀ i : Instr, s.resetSeen = true → (currentInput s).rst = false → s.phase = .run →
    s.status.busy = true → s.remaining ≤ 1 → decode s.latW = .ok i →
    step s = exec i (busCycle s (currentInput s)) ∧
      (busCycle s (currentInput s)).latW = s.latW ∧ (busCycle s (currentInput s)).latA = s.latA ∧
      (busCycle s (currentInput s)).latB = s.latB) ∧
    ∀ s : State, ∀ nbits w : Nat, ∀ i : Instr, decode (tableWord nbits w) = .ok i →
      step (s.withFetchWord nbits w) = exec i (recordCycle (s.withFetchWord nbits w) PortIn.idle)

/-- R254, R252. An illegal word is accepted by an idle block, takes its LATENCY, and completes with IllegalOperation:
zeros, no trace, ERRCODE = 3, TRACE_HDR.OP and the CMD readback `w[3:0]`, whatever the operands are. -/
def Obligations.IllegalWordCompletesWithCodeThree : Prop :=
  ∀ s : State, ∀ w : Word, ∀ rest, ∀ l : Nat, Presents s (writeAccess 0x008 w) rest →
    s.status.busy = false → s.phase = .idle → wordLegal w = false →
    l = Config.latency (w.extractLsb' 0 4) s.opa s.opb → (∀ p ∈ rest.take l, p.rst = false) →
    1 ≤ l ∧ ∃ t : State, Sys2Proof.core.run (l + 1) s = .next t ∧ Completed t ∧
      t.status.err = true ∧ t.status.errcode = 3 ∧ t.status.unsup = false ∧
      t.result = 0 ∧ t.result2 = 0 ∧ t.opLast = w.extractLsb' 0 4 ∧
      t.traceHdr = { op := w.extractLsb' 0 4, padw := 0, len := 0 } ∧ t.trace = s.trace ∧
      ∀ k j, readTarget t (.trace k j) = 0

/-- R101. Accept: a CMD write to an idle block latches the word and the operands, sets BUSY, clears DONE, ERR,
ERRCODE and UNSUP, leaves DROP and every other register, legal word or not; from then on the outcome registers read a free draw. -/
def Obligations.CmdWriteWhileIdleIsAccepted : Prop :=
  ∀ s : State, ∀ w : Word, ∀ rest, Presents s (writeAccess 0x008 w) rest →
    s.status.busy = false → s.phase = .idle →
    ∃ t, step s = .next t ∧
      t.latW = w ∧ t.latOp = w.extractLsb' 0 4 ∧ t.opLast = w.extractLsb' 0 4 ∧
      t.latA = s.opa ∧ t.latB = s.opb ∧ t.phase = .run ∧
      t.status = { busy := true, done := false, err := false, unsup := false, drop := s.status.drop, errcode := 0 } ∧
      t.remaining = Config.latency (w.extractLsb' 0 4) s.opa s.opb ∧ 1 ≤ t.remaining ∧
      t.opa = s.opa ∧ t.opb = s.opb ∧ t.result = s.result ∧ t.result2 = s.result2 ∧
      t.traceHdr = s.traceHdr ∧ t.trace = s.trace ∧ t.resetSeen = true ∧ t.inputs = rest ∧
      t.port = { rdata := 0, err := false, busy := false, done := s.status.done } ∧
      ∀ g, g.holdsOutcome = true → readTarget t g = Config.busyRead t.draws

/-- R102, R69, R103. Drop: a CMD write while BUSY = 1 sets DROP and changes nothing else, without `err`; the running command
goes on, with one edge less to go, and at a completion edge it completes with its own outcome, nothing else changed. The
working registers, which R36 leaves open, are not spoken of. (A running state with no edge left, which no run from reset
reaches, is taken as at its completion edge: log entry 14, DESIGN CHOICE.) -/
def Obligations.CmdWriteWhileBusyIsDropped : Prop :=
  ∀ s : State, ∀ w : Word, ∀ rest, ∀ t0 : State, Presents s (writeAccess 0x008 w) rest →
    s.status.busy = true → s.phase = .run →
    t0 = { s with
      status := { s.status with drop := true }
      inputs := rest
      port := { rdata := 0, err := false, busy := true, done := s.status.done }
      draws := s.draws + 1 } →
    (1 < s.remaining →
      ∃ t, step s = .next t ∧ withWorkingOf s t = { t0 with remaining := s.remaining - 1 }) ∧
    (s.remaining ≤ 1 →
      ∃ t, step s = .next t ∧ Completed t ∧ HoldsOutcome t s.latW (commandOutcome s.latW s.latA s.latB) ∧
        CompletionFrame t0 t (commandOutcome s.latW s.latA s.latB).entries.length)

/-- R103, R290. A command accepted by an idle block stays BUSY for exactly its LATENCY and completes at that edge
with `Exec(w, OPA, OPB)` of the accept, whatever the HOST does meanwhile, as long as reset is not asserted. -/
def Obligations.CommandCompletesAtItsLatency : Prop :=
  ∀ s : State, ∀ w : Word, ∀ rest, ∀ l : Nat, Presents s (writeAccess 0x008 w) rest →
    s.status.busy = false → s.phase = .idle → l = Config.latency (w.extractLsb' 0 4) s.opa s.opb →
    (∀ p ∈ rest.take l, p.rst = false) →
    (∀ n, 1 ≤ n → n ≤ l → ∃ u : State, Sys2Proof.core.run n s = .next u ∧
      u.status.busy = true ∧ u.status.done = false) ∧
    ∃ t : State, Sys2Proof.core.run (l + 1) s = .next t ∧ Completed t ∧
      HoldsOutcome t w (commandOutcome w s.opa s.opb) ∧
      ∀ k : Fin 64, (commandOutcome w s.opa s.opb).entries.length ≤ k.val →
        t.trace[k] = s.trace[k] ∧ ∀ j, readTarget t (.trace k j) = 0

/-- R288, R105. No HOST access can change a command after its accept: two different schedules of accesses without a
reset give one outcome. -/
def Obligations.HostTrafficCannotChangeARunningCommand : Prop :=
  ∀ s : State, ∀ ins ins' : List PortIn, s.resetSeen = true → s.status.busy = true → s.phase = .run →
    1 ≤ s.remaining → (∀ p ∈ ins.take s.remaining, p.rst = false) →
    (∀ p ∈ ins'.take s.remaining, p.rst = false) →
    ∃ t t' : State,
      Sys2Proof.core.run s.remaining { s with inputs := ins } = .next t ∧
      Sys2Proof.core.run s.remaining { s with inputs := ins' } = .next t' ∧
      Completed t ∧ Completed t' ∧ t.result = t'.result ∧ t.result2 = t'.result2 ∧
      t.traceHdr = t'.traceHdr ∧ t.trace = t'.trace ∧ t.status.err = t'.status.err ∧
      t.status.errcode = t'.status.errcode ∧ t.status.unsup = t'.status.unsup

/-- R287 (a). When CMD was accepted in a cycle, a STATUS read in the next cycle sees BUSY = 1, DONE = 0. -/
def Obligations.FirstPollAfterAcceptSeesBusy : Prop :=
  ∀ s : State, ∀ w : Word, ∀ rest, Presents s (writeAccess 0x008 w) (readAccess 0x00C :: rest) →
    s.status.busy = false → s.phase = .idle →
    ∃ t : State, Sys2Proof.core.run 2 s = .next t ∧ t.port.err = false ∧
      t.port.rdata.getLsbD 0 = true ∧ t.port.rdata.getLsbD 1 = false

/-! ## Reset, the invariant, the end of a run -/

/-- R280, R281, R282. A reset edge, from every state and over every access: every register takes the value the spec
states for it, a running command is abandoned, the access has no effect, `rdata` = 0 and `err` = 0. R282 gives `err` = 0
for an access; that it is 0 also when none is presented is the model's inference (log entry 10, DEDUCED). That no edges
are left, and that the schedule goes on, speaks of the model's own fields (log entries 3 and 5, DESIGN CHOICE). -/
def Obligations.ResetEdgeWinsFromEveryState : Prop :=
  ∀ s : State, ∀ p : PortIn, ∀ rest, s.inputs = p :: rest → p.rst = true →
    ∃ t, step s = .next t ∧
      t.opa = 0 ∧ t.opb = 0 ∧ t.opLast = 0 ∧ t.status = Status.zero ∧ t.result = 0 ∧ t.result2 = 0 ∧
      t.traceHdr = TraceHdr.zero ∧ t.phase = .idle ∧ t.remaining = 0 ∧
      (∀ k j, readTarget t (.trace k j) = 0) ∧ t.resetSeen = true ∧ t.inputs = rest ∧
      t.port.rdata = 0 ∧ t.port.err = false

/-- R40. The values the spec states for the reset state. -/
def Obligations.ResetValues : Prop :=
  State.reset.opa = 0 ∧ State.reset.opb = 0 ∧ State.reset.opLast = 0 ∧ State.reset.status.word = 0 ∧
    State.reset.result = 0 ∧ State.reset.result2 = 0 ∧ State.reset.traceHdr.word = 0 ∧
    State.reset.phase = .idle ∧ busyWire State.reset = false ∧ doneWire State.reset = false ∧
    ∀ k j, readTarget State.reset (.trace k j) = 0

/-- The invariant holds in the reset state. -/
def Obligations.ResetMeetsTheInvariant : Prop := BlockInvariant State.reset

/-- R25, R36, R27, R287 (b), R34, R35. Every step keeps the invariant: STATUS is a legal combination, PHASE is RUN exactly when
BUSY = 1, the registers are as a reset left them until the first accept, and while DONE = 1 they hold
`Exec(LAT_W, LAT_A, LAT_B)` of the last accepted command, whatever the HOST does. The control word of every valid trace
entry has its reserved bits 0 and a KIND of at most 12 (R34, R35, U11, U12), also after an UNSUP outcome. -/
def Obligations.EveryStepKeepsTheInvariant : Prop :=
  ∀ s t : State, BlockInvariant s → step s = .next t → BlockInvariant t

/-- R293. After the first reset edge every step gives a next state, under every input. Before it R283 gives no guarantee
for an access: that the model refuses exactly an access without reset there, and lets an idle cycle pass, is its choice
after the treatment `refuse` of U6 (log entry 9, DESIGN CHOICE). -/
def Obligations.TheBlockNeverStops : Prop :=
  ∀ s : State,
    (s.resetSeen = true → ∃ t, step s = .next t ∧ t.resetSeen = true) ∧
    (s.resetSeen = false →
      (step s = .refused .beforeFirstReset ↔ (currentInput s).sel = true ∧ (currentInput s).rst = false)) ∧
    ∀ r, step s ≠ .refused (.notModelled r)

/-- R262. An idle block that is not accessed holds its registers, for any number of cycles. -/
def Obligations.IdleBlockHoldsItsState : Prop :=
  ∀ s : State, ∀ n : Nat, s.resetSeen = true → s.phase = .idle → s.inputs = [] →
    ∃ t : State, Sys2Proof.core.run n s = .next t ∧
      { t with port := s.port, draws := s.draws } = s

/-! ## The HOST bus -/

/-- R64, R63. An access is answered with `err` = 1 exactly when its address is misaligned or unmapped; then a read
gives 0 and a write changes no state. -/
def Obligations.UnmappedAccessHasNoEffect : Prop :=
  (∀ a : Addr, mapAddr a = none ↔
    a.toNat % 4 ≠ 0 ∨ (0x01C ≤ a.toNat ∧ a.toNat < 0x400) ∨ 0x800 ≤ a.toNat) ∧
    ∀ s : State, ∀ p : PortIn, p.sel = true → p.rst = false →
      ((outputs s p).err = true ↔ mapAddr p.addr = none) ∧
      (mapAddr p.addr = none → (outputs s p).rdata = 0 ∧ busCycle s p = recordCycle s p)

/-- R63, R24, R25, R32, R33. What a read of each mapped offset delivers while BUSY = 0. -/
def Obligations.ReadsDeliverTheRegisterMap : Prop :=
  ∀ s : State, s.status.busy = false →
    (outputs s (readAccess 0x000)).rdata = s.opa ∧ (outputs s (readAccess 0x004)).rdata = s.opb ∧
    (outputs s (readAccess 0x008)).rdata.toNat = s.opLast.toNat ∧
    (outputs s (readAccess 0x00C)).rdata.toNat =
      2 * bitNat s.status.done + 4 * bitNat s.status.err + 8 * bitNat s.status.unsup
        + 16 * bitNat s.status.drop + 256 * s.status.errcode.toNat ∧
    (outputs s (readAccess 0x010)).rdata = s.result ∧ (outputs s (readAccess 0x014)).rdata = s.result2 ∧
    (outputs s (readAccess 0x018)).rdata.toNat =
      s.traceHdr.op.toNat + 256 * s.traceHdr.padw.toNat + 65536 * s.traceHdr.len.toNat ∧
    ∀ k : Fin 64, ∀ j : Fin 4,
      (outputs s (readAccess (BitVec.ofNat 12 (0x400 + 16 * k.val + 4 * j.val)))).rdata =
        if k.val < s.traceHdr.len.toNat then (s.trace[k]).word j else 0

/-- R285. While BUSY = 1 a read of RESULT, RESULT2, TRACE_HDR or a trace word delivers a free draw, a new one in
every cycle, without `err` and without effect on the block; OPA, OPB, CMD and STATUS read exactly. -/
def Obligations.OutcomeReadsWhileBusyAreFreeDraws : Prop :=
  ∀ s : State, ∀ p : PortIn, ∀ g, s.status.busy = true → p.sel = true → p.we = false → p.rst = false →
    mapAddr p.addr = some g →
    (outputs s p).err = false ∧ (busCycle s p).draws = s.draws + 1 ∧ busCycle s p = recordCycle s p ∧
      (g.holdsOutcome = true → (outputs s p).rdata = Config.busyRead s.draws) ∧
      (g.holdsOutcome = false → (outputs s p).rdata = heldWord s g)

/-- R67. A read leaves all state as an idle cycle leaves it, but for the port values of the cycle. -/
def Obligations.ReadsHaveNoSideEffect : Prop :=
  ∀ s : State, ∀ p : PortIn, ∀ rest, p.sel = true → p.we = false → p.rst = false → s.resetSeen = true →
    ∃ t t' : State, step { s with inputs := p :: rest } = .next t ∧
      step { s with inputs := PortIn.idle :: rest } = .next t' ∧ { t with port := t'.port } = t'

/-- R21, R22, R25, R67, R288, R69. A write of a mapped offset other than CMD takes effect at the edge that ends its cycle,
in an idle block and in a running one, also at the completion edge: OPA and OPB take the value, STATUS clears DROP exactly
on bit 4, RESULT, RESULT2, TRACE_HDR and the trace buffer ignore it without `err` (`afterWrite`). An idle block changes in
nothing else; a running command goes on with one edge less to go, or completes with the outcome of the operands it
latched; and a read of the written operand in the next cycle gives the value. The working registers, which R36 leaves
open, are not spoken of in a running block. (A running state with no edge left, which no run from reset reaches, is taken
as at its completion edge: log entry 14, the model's choice.) -/
def Obligations.WritesTakeEffectAtOnce : Prop :=
  ∀ s : State, ∀ v : Word, ∀ a : Addr, ∀ rest, Presents s (writeAccess a v) rest → mapAddr a ≠ none → a ≠ 0x008 →
    (s.phase = .idle → step s = .next (afterWrite s a v rest)) ∧
    (s.phase = .run → 1 < s.remaining →
      ∃ t, step s = .next t ∧
        withWorkingOf s t = { afterWrite s a v rest with remaining := s.remaining - 1 }) ∧
    (s.phase = .run → s.remaining ≤ 1 →
      ∃ t, step s = .next t ∧ Completed t ∧ HoldsOutcome t s.latW (commandOutcome s.latW s.latA s.latB) ∧
        CompletionFrame (afterWrite s a v rest) t (commandOutcome s.latW s.latA s.latB).entries.length) ∧
    ∀ t, step s = .next t → (a = 0x000 ∨ a = 0x004) → (outputs t (readAccess a)).rdata = v

/-- R66. The byte-mapped view is little-endian: four bytes of an aligned mapped word, lowest address least
significant, make up the word. -/
def Obligations.WindowBytesAreLittleEndian : Prop :=
  ∀ s : State, ∀ a : Addr, ∀ g, mapAddr a = some g →
    ∃ b0 b1 b2 b3, windowByte s a = some b0 ∧ windowByte s (a + 1) = some b1 ∧
      windowByte s (a + 2) = some b2 ∧ windowByte s (a + 3) = some b3 ∧
      wordOfBytes b0 b1 b2 b3 = heldWord s g

/-- R39. The `busy` and `done` outputs of a cycle equal STATUS.BUSY and STATUS.DONE of that cycle. -/
def Obligations.SidebandWiresMirrorStatus : Prop :=
  ∀ s t : State, step s = .next t → t.port.busy = s.status.busy ∧ t.port.done = s.status.done

/-- R286, R292. A HOST that keeps its duties in a cycle gets exact read data and loses no command: no free value is
read and DROP does not rise. -/
def Obligations.DutifulHostReadsExactValues : Prop :=
  ∀ s : State, ∀ p : PortIn, p.rst = false → HostDutiful s p →
    (∀ g, p.sel = true → p.we = false → mapAddr p.addr = some g → (outputs s p).rdata = heldWord s g) ∧
    ((busCycle s p).status.drop = true → s.status.drop = true)

/-- R84, R85. What every form of a HOST program presents on the bus, where a read puts its data, and the expansion of each
pseudo-instruction. -/
def Obligations.HostNotationPresentsItsTransactions : Prop :=
  (∀ r : BusReg, ∀ off : Addr,
    (r, off) ∈ [(BusReg.opa, (0x000 : Addr)), (.opb, 0x004), (.cmd, 0x008), (.status, 0x00C), (.result, 0x010),
      (.result2, 0x014), (.traceHdr, 0x018)] →
    (∀ vars v, (HostStmt.wr r (.lit v)).access vars = writeAccess off v) ∧
      (∀ vars y v, vars[y]? = some v → (HostStmt.wr r (.var y)).access vars = writeAccess off v) ∧
      ∀ vars x, (HostStmt.rd r x).access vars = readAccess off) ∧
    (∀ vars i, (HostStmt.wrCmd i).access vars = writeAccess 0x008 (encode i)) ∧
    (∀ vars x, ∀ k : Fin 64, ∀ j : Fin 4,
      (HostStmt.rdTrace (.lit (BitVec.ofNat 32 k.val)) j x).access vars
          = readAccess (BitVec.ofNat 12 (0x400 + 16 * k.val + 4 * j.val)) ∧
        mapAddr ((HostStmt.rdTrace (.lit (BitVec.ofNat 32 k.val)) j x).access vars).addr = some (.trace k j)) ∧
    (∀ vars l c, (HostStmt.label l).access vars = PortIn.idle ∧ (HostStmt.ifGoto c l).access vars = PortIn.idle) ∧
    (∀ vars d r k j x, hostVar ((HostStmt.rd r x).varsAfter vars d) x = d ∧
      hostVar ((HostStmt.rdTrace k j x).varsAfter vars d) x = d ∧
      ∀ y, y ≠ x → hostVar ((HostStmt.rd r x).varsAfter vars d) y = hostVar vars y ∧
        hostVar ((HostStmt.rdTrace k j x).varsAfter vars d) y = hostVar vars y) ∧
    (∀ x l, (Pseudo.wait x l).expand = [.label l, .rd .status x, .ifGoto (.bitIsZero x 1) l]) ∧
    (∀ i u v x l, (Pseudo.run i u v x l).expand =
      [.wr .opa u, .wr .opb v, .wrCmd i, .label l, .rd .status x, .ifGoto (.bitIsZero x 1) l]) ∧
    (∀ i u x l, (Pseudo.run1 i u x l).expand =
      [.wr .opa u, .wrCmd i, .label l, .rd .status x, .ifGoto (.bitIsZero x 1) l]) ∧
    Pseudo.clrDrop.expand = [.wr .status (.lit 0x00000010)]

/-- R85, R287. One turn of WAIT: from its STATUS read the loop ends when DONE was 1 in that cycle, and returns to its
label when it was 0. That the turn takes two cycles, the read and a branch with a cycle of its own, is the model's choice
(log entry 15, DESIGN CHOICE): the spec leaves the HOST's timing to the HOST. -/
def Obligations.WaitEndsExactlyOnDone : Prop :=
  ∀ y : Bench, ∀ x l : Nat, y.host.prog = (Pseudo.wait x l).expand → y.host.pc = 1 →
    y.block.resetSeen = true →
    ∃ y1 y2, y.cycle = .next y1 ∧ y1.cycle = .next y2 ∧
      y2.host.pc = (if y.block.status.done then 3 else 0)
end

