-- ==== Sys2Proof/Laws/State.lean ====
section
/-! SUPPORT. One lemma per field per update of the state, true by rfl (generated; nothing here unfolds twice). -/

namespace Sys2Proof.Machine

variable (s : State)

@[simp] theorem latchCommand_opa (w : Word) : (latchCommand s w).opa = s.opa := rfl
@[simp] theorem latchCommand_opb (w : Word) : (latchCommand s w).opb = s.opb := rfl
@[simp] theorem latchCommand_opLast (w : Word) : (latchCommand s w).opLast = opField w := rfl
@[simp] theorem latchCommand_status (w : Word) : (latchCommand s w).status = s.status.onAccept := rfl
@[simp] theorem latchCommand_result (w : Word) : (latchCommand s w).result = s.result := rfl
@[simp] theorem latchCommand_result2 (w : Word) : (latchCommand s w).result2 = s.result2 := rfl
@[simp] theorem latchCommand_traceHdr (w : Word) : (latchCommand s w).traceHdr = s.traceHdr := rfl
@[simp] theorem latchCommand_trace (w : Word) : (latchCommand s w).trace = s.trace := rfl
@[simp] theorem latchCommand_phase (w : Word) : (latchCommand s w).phase = .run := rfl
@[simp] theorem latchCommand_latOp (w : Word) : (latchCommand s w).latOp = opField w := rfl
@[simp] theorem latchCommand_latW (w : Word) : (latchCommand s w).latW = w := rfl
@[simp] theorem latchCommand_latA (w : Word) : (latchCommand s w).latA = s.opa := rfl
@[simp] theorem latchCommand_latB (w : Word) : (latchCommand s w).latB = s.opb := rfl
@[simp] theorem latchCommand_workAcc (w : Word) : (latchCommand s w).workAcc = s.workAcc := rfl
@[simp] theorem latchCommand_workRem (w : Word) : (latchCommand s w).workRem = s.workRem := rfl
@[simp] theorem latchCommand_workCount (w : Word) : (latchCommand s w).workCount = s.workCount := rfl
@[simp] theorem latchCommand_workF64 (w : Word) : (latchCommand s w).workF64 = s.workF64 := rfl
@[simp] theorem latchCommand_remaining (w : Word) : (latchCommand s w).remaining = s.remaining := rfl
@[simp] theorem latchCommand_resetSeen (w : Word) : (latchCommand s w).resetSeen = s.resetSeen := rfl
@[simp] theorem latchCommand_inputs (w : Word) : (latchCommand s w).inputs = s.inputs := rfl
@[simp] theorem latchCommand_port (w : Word) : (latchCommand s w).port = s.port := rfl
@[simp] theorem latchCommand_draws (w : Word) : (latchCommand s w).draws = s.draws := rfl

@[simp] theorem drawWorking_opa : (drawWorking s).opa = s.opa := rfl
@[simp] theorem drawWorking_opb : (drawWorking s).opb = s.opb := rfl
@[simp] theorem drawWorking_opLast : (drawWorking s).opLast = s.opLast := rfl
@[simp] theorem drawWorking_status : (drawWorking s).status = s.status := rfl
@[simp] theorem drawWorking_result : (drawWorking s).result = s.result := rfl
@[simp] theorem drawWorking_result2 : (drawWorking s).result2 = s.result2 := rfl
@[simp] theorem drawWorking_traceHdr : (drawWorking s).traceHdr = s.traceHdr := rfl
@[simp] theorem drawWorking_trace : (drawWorking s).trace = s.trace := rfl
@[simp] theorem drawWorking_phase : (drawWorking s).phase = s.phase := rfl
@[simp] theorem drawWorking_latOp : (drawWorking s).latOp = s.latOp := rfl
@[simp] theorem drawWorking_latW : (drawWorking s).latW = s.latW := rfl
@[simp] theorem drawWorking_latA : (drawWorking s).latA = s.latA := rfl
@[simp] theorem drawWorking_latB : (drawWorking s).latB = s.latB := rfl
@[simp] theorem drawWorking_workAcc : (drawWorking s).workAcc = Config.workAcc s.draws := rfl
@[simp] theorem drawWorking_workRem : (drawWorking s).workRem = Config.workRem s.draws := rfl
@[simp] theorem drawWorking_workCount : (drawWorking s).workCount = Config.workCount s.draws := rfl
@[simp] theorem drawWorking_workF64 : (drawWorking s).workF64 = Config.workF64 s.draws := rfl
@[simp] theorem drawWorking_remaining : (drawWorking s).remaining = s.remaining := rfl
@[simp] theorem drawWorking_resetSeen : (drawWorking s).resetSeen = s.resetSeen := rfl
@[simp] theorem drawWorking_inputs : (drawWorking s).inputs = s.inputs := rfl
@[simp] theorem drawWorking_port : (drawWorking s).port = s.port := rfl
@[simp] theorem drawWorking_draws : (drawWorking s).draws = s.draws := rfl

@[simp] theorem accept_opa (w : Word) : (accept s w).opa = s.opa := rfl
@[simp] theorem accept_opb (w : Word) : (accept s w).opb = s.opb := rfl
@[simp] theorem accept_opLast (w : Word) : (accept s w).opLast = opField w := rfl
@[simp] theorem accept_status (w : Word) : (accept s w).status = s.status.onAccept := rfl
@[simp] theorem accept_result (w : Word) : (accept s w).result = s.result := rfl
@[simp] theorem accept_result2 (w : Word) : (accept s w).result2 = s.result2 := rfl
@[simp] theorem accept_traceHdr (w : Word) : (accept s w).traceHdr = s.traceHdr := rfl
@[simp] theorem accept_trace (w : Word) : (accept s w).trace = s.trace := rfl
@[simp] theorem accept_phase (w : Word) : (accept s w).phase = .run := rfl
@[simp] theorem accept_latOp (w : Word) : (accept s w).latOp = opField w := rfl
@[simp] theorem accept_latW (w : Word) : (accept s w).latW = w := rfl
@[simp] theorem accept_latA (w : Word) : (accept s w).latA = s.opa := rfl
@[simp] theorem accept_latB (w : Word) : (accept s w).latB = s.opb := rfl
@[simp] theorem accept_workAcc (w : Word) : (accept s w).workAcc = Config.workAcc s.draws := rfl
@[simp] theorem accept_workRem (w : Word) : (accept s w).workRem = Config.workRem s.draws := rfl
@[simp] theorem accept_workCount (w : Word) : (accept s w).workCount = Config.workCount s.draws := rfl
@[simp] theorem accept_workF64 (w : Word) : (accept s w).workF64 = Config.workF64 s.draws := rfl
@[simp] theorem accept_remaining (w : Word) : (accept s w).remaining = Config.latency (opField w) s.opa s.opb := rfl
@[simp] theorem accept_resetSeen (w : Word) : (accept s w).resetSeen = s.resetSeen := rfl
@[simp] theorem accept_inputs (w : Word) : (accept s w).inputs = s.inputs := rfl
@[simp] theorem accept_port (w : Word) : (accept s w).port = s.port := rfl
@[simp] theorem accept_draws (w : Word) : (accept s w).draws = s.draws := rfl

@[simp] theorem dropCommand_opa : (dropCommand s).opa = s.opa := rfl
@[simp] theorem dropCommand_opb : (dropCommand s).opb = s.opb := rfl
@[simp] theorem dropCommand_opLast : (dropCommand s).opLast = s.opLast := rfl
@[simp] theorem dropCommand_status : (dropCommand s).status = s.status.onDrop := rfl
@[simp] theorem dropCommand_result : (dropCommand s).result = s.result := rfl
@[simp] theorem dropCommand_result2 : (dropCommand s).result2 = s.result2 := rfl
@[simp] theorem dropCommand_traceHdr : (dropCommand s).traceHdr = s.traceHdr := rfl
@[simp] theorem dropCommand_trace : (dropCommand s).trace = s.trace := rfl
@[simp] theorem dropCommand_phase : (dropCommand s).phase = s.phase := rfl
@[simp] theorem dropCommand_latOp : (dropCommand s).latOp = s.latOp := rfl
@[simp] theorem dropCommand_latW : (dropCommand s).latW = s.latW := rfl
@[simp] theorem dropCommand_latA : (dropCommand s).latA = s.latA := rfl
@[simp] theorem dropCommand_latB : (dropCommand s).latB = s.latB := rfl
@[simp] theorem dropCommand_workAcc : (dropCommand s).workAcc = s.workAcc := rfl
@[simp] theorem dropCommand_workRem : (dropCommand s).workRem = s.workRem := rfl
@[simp] theorem dropCommand_workCount : (dropCommand s).workCount = s.workCount := rfl
@[simp] theorem dropCommand_workF64 : (dropCommand s).workF64 = s.workF64 := rfl
@[simp] theorem dropCommand_remaining : (dropCommand s).remaining = s.remaining := rfl
@[simp] theorem dropCommand_resetSeen : (dropCommand s).resetSeen = s.resetSeen := rfl
@[simp] theorem dropCommand_inputs : (dropCommand s).inputs = s.inputs := rfl
@[simp] theorem dropCommand_port : (dropCommand s).port = s.port := rfl
@[simp] theorem dropCommand_draws : (dropCommand s).draws = s.draws := rfl

@[simp] theorem runOn_opa : (runOn s).opa = s.opa := rfl
@[simp] theorem runOn_opb : (runOn s).opb = s.opb := rfl
@[simp] theorem runOn_opLast : (runOn s).opLast = s.opLast := rfl
@[simp] theorem runOn_status : (runOn s).status = s.status := rfl
@[simp] theorem runOn_result : (runOn s).result = s.result := rfl
@[simp] theorem runOn_result2 : (runOn s).result2 = s.result2 := rfl
@[simp] theorem runOn_traceHdr : (runOn s).traceHdr = s.traceHdr := rfl
@[simp] theorem runOn_trace : (runOn s).trace = s.trace := rfl
@[simp] theorem runOn_phase : (runOn s).phase = s.phase := rfl
@[simp] theorem runOn_latOp : (runOn s).latOp = s.latOp := rfl
@[simp] theorem runOn_latW : (runOn s).latW = s.latW := rfl
@[simp] theorem runOn_latA : (runOn s).latA = s.latA := rfl
@[simp] theorem runOn_latB : (runOn s).latB = s.latB := rfl
@[simp] theorem runOn_workAcc : (runOn s).workAcc = Config.workAcc s.draws := rfl
@[simp] theorem runOn_workRem : (runOn s).workRem = Config.workRem s.draws := rfl
@[simp] theorem runOn_workCount : (runOn s).workCount = Config.workCount s.draws := rfl
@[simp] theorem runOn_workF64 : (runOn s).workF64 = Config.workF64 s.draws := rfl
@[simp] theorem runOn_remaining : (runOn s).remaining = s.remaining - 1 := rfl
@[simp] theorem runOn_resetSeen : (runOn s).resetSeen = s.resetSeen := rfl
@[simp] theorem runOn_inputs : (runOn s).inputs = s.inputs := rfl
@[simp] theorem runOn_port : (runOn s).port = s.port := rfl
@[simp] theorem runOn_draws : (runOn s).draws = s.draws := rfl

@[simp] theorem complete_opa (o : CmdOutcome) : (complete s o).opa = s.opa := rfl
@[simp] theorem complete_opb (o : CmdOutcome) : (complete s o).opb = s.opb := rfl
@[simp] theorem complete_opLast (o : CmdOutcome) : (complete s o).opLast = s.opLast := rfl
@[simp] theorem complete_status (o : CmdOutcome) : (complete s o).status = s.status.onCompletion o.err o.code o.unsup := rfl
@[simp] theorem complete_result (o : CmdOutcome) : (complete s o).result = o.result := rfl
@[simp] theorem complete_result2 (o : CmdOutcome) : (complete s o).result2 = o.result2 := rfl
@[simp] theorem complete_traceHdr (o : CmdOutcome) : (complete s o).traceHdr = { op := opField s.latW, padw := o.padw, len := o.len } := rfl
@[simp] theorem complete_trace (o : CmdOutcome) : (complete s o).trace = writeTrace s.trace o.entries := rfl
@[simp] theorem complete_phase (o : CmdOutcome) : (complete s o).phase = .idle := rfl
@[simp] theorem complete_latOp (o : CmdOutcome) : (complete s o).latOp = s.latOp := rfl
@[simp] theorem complete_latW (o : CmdOutcome) : (complete s o).latW = s.latW := rfl
@[simp] theorem complete_latA (o : CmdOutcome) : (complete s o).latA = s.latA := rfl
@[simp] theorem complete_latB (o : CmdOutcome) : (complete s o).latB = s.latB := rfl
@[simp] theorem complete_workAcc (o : CmdOutcome) : (complete s o).workAcc = s.workAcc := rfl
@[simp] theorem complete_workRem (o : CmdOutcome) : (complete s o).workRem = s.workRem := rfl
@[simp] theorem complete_workCount (o : CmdOutcome) : (complete s o).workCount = s.workCount := rfl
@[simp] theorem complete_workF64 (o : CmdOutcome) : (complete s o).workF64 = s.workF64 := rfl
@[simp] theorem complete_remaining (o : CmdOutcome) : (complete s o).remaining = 0 := rfl
@[simp] theorem complete_resetSeen (o : CmdOutcome) : (complete s o).resetSeen = s.resetSeen := rfl
@[simp] theorem complete_inputs (o : CmdOutcome) : (complete s o).inputs = s.inputs := rfl
@[simp] theorem complete_port (o : CmdOutcome) : (complete s o).port = s.port := rfl
@[simp] theorem complete_draws (o : CmdOutcome) : (complete s o).draws = s.draws := rfl

@[simp] theorem recordCycle_opa (p : PortIn) : (recordCycle s p).opa = s.opa := rfl
@[simp] theorem recordCycle_opb (p : PortIn) : (recordCycle s p).opb = s.opb := rfl
@[simp] theorem recordCycle_opLast (p : PortIn) : (recordCycle s p).opLast = s.opLast := rfl
@[simp] theorem recordCycle_status (p : PortIn) : (recordCycle s p).status = s.status := rfl
@[simp] theorem recordCycle_result (p : PortIn) : (recordCycle s p).result = s.result := rfl
@[simp] theorem recordCycle_result2 (p : PortIn) : (recordCycle s p).result2 = s.result2 := rfl
@[simp] theorem recordCycle_traceHdr (p : PortIn) : (recordCycle s p).traceHdr = s.traceHdr := rfl
@[simp] theorem recordCycle_trace (p : PortIn) : (recordCycle s p).trace = s.trace := rfl
@[simp] theorem recordCycle_phase (p : PortIn) : (recordCycle s p).phase = s.phase := rfl
@[simp] theorem recordCycle_latOp (p : PortIn) : (recordCycle s p).latOp = s.latOp := rfl
@[simp] theorem recordCycle_latW (p : PortIn) : (recordCycle s p).latW = s.latW := rfl
@[simp] theorem recordCycle_latA (p : PortIn) : (recordCycle s p).latA = s.latA := rfl
@[simp] theorem recordCycle_latB (p : PortIn) : (recordCycle s p).latB = s.latB := rfl
@[simp] theorem recordCycle_workAcc (p : PortIn) : (recordCycle s p).workAcc = s.workAcc := rfl
@[simp] theorem recordCycle_workRem (p : PortIn) : (recordCycle s p).workRem = s.workRem := rfl
@[simp] theorem recordCycle_workCount (p : PortIn) : (recordCycle s p).workCount = s.workCount := rfl
@[simp] theorem recordCycle_workF64 (p : PortIn) : (recordCycle s p).workF64 = s.workF64 := rfl
@[simp] theorem recordCycle_remaining (p : PortIn) : (recordCycle s p).remaining = s.remaining := rfl
@[simp] theorem recordCycle_resetSeen (p : PortIn) : (recordCycle s p).resetSeen = s.resetSeen := rfl
@[simp] theorem recordCycle_inputs (p : PortIn) : (recordCycle s p).inputs = s.inputs.tail := rfl
@[simp] theorem recordCycle_port (p : PortIn) : (recordCycle s p).port = outputs s p := rfl
@[simp] theorem recordCycle_draws (p : PortIn) : (recordCycle s p).draws = s.draws + 1 := rfl

@[simp] theorem loadCommand_opa (w : Word) : (loadCommand s w).opa = s.opa := rfl
@[simp] theorem loadCommand_opb (w : Word) : (loadCommand s w).opb = s.opb := rfl
@[simp] theorem loadCommand_opLast (w : Word) : (loadCommand s w).opLast = opField w := rfl
@[simp] theorem loadCommand_status (w : Word) : (loadCommand s w).status = s.status.onAccept := rfl
@[simp] theorem loadCommand_result (w : Word) : (loadCommand s w).result = s.result := rfl
@[simp] theorem loadCommand_result2 (w : Word) : (loadCommand s w).result2 = s.result2 := rfl
@[simp] theorem loadCommand_traceHdr (w : Word) : (loadCommand s w).traceHdr = s.traceHdr := rfl
@[simp] theorem loadCommand_trace (w : Word) : (loadCommand s w).trace = s.trace := rfl
@[simp] theorem loadCommand_phase (w : Word) : (loadCommand s w).phase = .run := rfl
@[simp] theorem loadCommand_latOp (w : Word) : (loadCommand s w).latOp = opField w := rfl
@[simp] theorem loadCommand_latW (w : Word) : (loadCommand s w).latW = w := rfl
@[simp] theorem loadCommand_latA (w : Word) : (loadCommand s w).latA = s.opa := rfl
@[simp] theorem loadCommand_latB (w : Word) : (loadCommand s w).latB = s.opb := rfl
@[simp] theorem loadCommand_workAcc (w : Word) : (loadCommand s w).workAcc = s.workAcc := rfl
@[simp] theorem loadCommand_workRem (w : Word) : (loadCommand s w).workRem = s.workRem := rfl
@[simp] theorem loadCommand_workCount (w : Word) : (loadCommand s w).workCount = s.workCount := rfl
@[simp] theorem loadCommand_workF64 (w : Word) : (loadCommand s w).workF64 = s.workF64 := rfl
@[simp] theorem loadCommand_remaining (w : Word) : (loadCommand s w).remaining = 1 := rfl
@[simp] theorem loadCommand_resetSeen (w : Word) : (loadCommand s w).resetSeen = true := rfl
@[simp] theorem loadCommand_inputs (w : Word) : (loadCommand s w).inputs = PortIn.idle :: s.inputs := rfl
@[simp] theorem loadCommand_port (w : Word) : (loadCommand s w).port = s.port := rfl
@[simp] theorem loadCommand_draws (w : Word) : (loadCommand s w).draws = s.draws := rfl

@[simp] theorem resetEdge_opa : (resetEdge s).opa = State.reset.opa := rfl
@[simp] theorem resetEdge_opb : (resetEdge s).opb = State.reset.opb := rfl
@[simp] theorem resetEdge_opLast : (resetEdge s).opLast = State.reset.opLast := rfl
@[simp] theorem resetEdge_status : (resetEdge s).status = State.reset.status := rfl
@[simp] theorem resetEdge_result : (resetEdge s).result = State.reset.result := rfl
@[simp] theorem resetEdge_result2 : (resetEdge s).result2 = State.reset.result2 := rfl
@[simp] theorem resetEdge_traceHdr : (resetEdge s).traceHdr = State.reset.traceHdr := rfl
@[simp] theorem resetEdge_trace : (resetEdge s).trace = State.reset.trace := rfl
@[simp] theorem resetEdge_phase : (resetEdge s).phase = State.reset.phase := rfl
@[simp] theorem resetEdge_latOp : (resetEdge s).latOp = State.reset.latOp := rfl
@[simp] theorem resetEdge_latW : (resetEdge s).latW = State.reset.latW := rfl
@[simp] theorem resetEdge_latA : (resetEdge s).latA = State.reset.latA := rfl
@[simp] theorem resetEdge_latB : (resetEdge s).latB = State.reset.latB := rfl
@[simp] theorem resetEdge_workAcc : (resetEdge s).workAcc = State.reset.workAcc := rfl
@[simp] theorem resetEdge_workRem : (resetEdge s).workRem = State.reset.workRem := rfl
@[simp] theorem resetEdge_workCount : (resetEdge s).workCount = State.reset.workCount := rfl
@[simp] theorem resetEdge_workF64 : (resetEdge s).workF64 = State.reset.workF64 := rfl
@[simp] theorem resetEdge_remaining : (resetEdge s).remaining = State.reset.remaining := rfl
@[simp] theorem resetEdge_resetSeen : (resetEdge s).resetSeen = State.reset.resetSeen := rfl
@[simp] theorem resetEdge_inputs : (resetEdge s).inputs = s.inputs := rfl
@[simp] theorem resetEdge_port : (resetEdge s).port = s.port := rfl
@[simp] theorem resetEdge_draws : (resetEdge s).draws = s.draws := rfl

@[simp] theorem status_onAccept_busy (t : Status) : t.onAccept.busy = true := rfl
@[simp] theorem status_onAccept_done (t : Status) : t.onAccept.done = false := rfl
@[simp] theorem status_onAccept_err (t : Status) : t.onAccept.err = false := rfl
@[simp] theorem status_onAccept_unsup (t : Status) : t.onAccept.unsup = false := rfl
@[simp] theorem status_onAccept_drop (t : Status) : t.onAccept.drop = t.drop := rfl
@[simp] theorem status_onAccept_errcode (t : Status) : t.onAccept.errcode = 0 := rfl

@[simp] theorem status_onCompletion_busy (t : Status) (e : Bool) (c : BitVec 3) (u : Bool) :
    (t.onCompletion e c u).busy = false := rfl
@[simp] theorem status_onCompletion_done (t : Status) (e : Bool) (c : BitVec 3) (u : Bool) :
    (t.onCompletion e c u).done = true := rfl
@[simp] theorem status_onCompletion_err (t : Status) (e : Bool) (c : BitVec 3) (u : Bool) :
    (t.onCompletion e c u).err = e := rfl
@[simp] theorem status_onCompletion_unsup (t : Status) (e : Bool) (c : BitVec 3) (u : Bool) :
    (t.onCompletion e c u).unsup = u := rfl
@[simp] theorem status_onCompletion_drop (t : Status) (e : Bool) (c : BitVec 3) (u : Bool) :
    (t.onCompletion e c u).drop = t.drop := rfl
@[simp] theorem status_onCompletion_errcode (t : Status) (e : Bool) (c : BitVec 3) (u : Bool) :
    (t.onCompletion e c u).errcode = c := rfl

@[simp] theorem status_onDrop_busy (t : Status) : t.onDrop.busy = t.busy := rfl
@[simp] theorem status_onDrop_done (t : Status) : t.onDrop.done = t.done := rfl
@[simp] theorem status_onDrop_err (t : Status) : t.onDrop.err = t.err := rfl
@[simp] theorem status_onDrop_unsup (t : Status) : t.onDrop.unsup = t.unsup := rfl
@[simp] theorem status_onDrop_drop (t : Status) : t.onDrop.drop = true := rfl
@[simp] theorem status_onDrop_errcode (t : Status) : t.onDrop.errcode = t.errcode := rfl

@[simp] theorem status_onWrite_busy (t : Status) (v : Word) : (t.onWrite v).busy = t.busy := by
  unfold Status.onWrite; split <;> rfl
@[simp] theorem status_onWrite_done (t : Status) (v : Word) : (t.onWrite v).done = t.done := by
  unfold Status.onWrite; split <;> rfl
@[simp] theorem status_onWrite_err (t : Status) (v : Word) : (t.onWrite v).err = t.err := by
  unfold Status.onWrite; split <;> rfl
@[simp] theorem status_onWrite_unsup (t : Status) (v : Word) : (t.onWrite v).unsup = t.unsup := by
  unfold Status.onWrite; split <;> rfl
@[simp] theorem status_onWrite_errcode (t : Status) (v : Word) : (t.onWrite v).errcode = t.errcode := by
  unfold Status.onWrite; split <;> rfl
theorem status_onWrite_drop (t : Status) (v : Word) :
    (t.onWrite v).drop = (t.drop && !v.getLsbD 4) := by
  unfold Status.onWrite; split <;> simp_all

end Sys2Proof.Machine
end

