-- ==== Sys2Proof/Laws/Ops.lean ====
section
/-! SUPPORT. One lemma per shared operation that says once everything it can do. -/

namespace Sys2Proof.Machine

/-- Every meaning is one completion with the outcome of its operation on the latched operands. -/
theorem exec_eq_complete (i : Instr) (s : State) :
    exec i s = .next (complete s (outcomeOf i s.latA s.latB)) := by
  cases i <;> rfl

/-- The completion edge writes the outcome of the latched command, legal or not. -/
theorem runCommand_eq_complete (s : State) :
    runCommand s = .next (complete s (commandOutcome s.latW s.latA s.latB)) := by
  unfold runCommand commandOutcome
  split <;> simp_all [exec_eq_complete, execIllegal]

/-- A command request is an accept or a drop, as STATUS.BUSY says (R101, R102). -/
theorem requestCommand_cases (s : State) (w : Word) :
    (s.status.busy = false ∧ requestCommand s w = accept s w) ∨
      (s.status.busy = true ∧ requestCommand s w = dropCommand s) := by
  cases h : s.status.busy <;> simp [requestCommand, h]

/-- Everything a write can do: set an operand register, request a command, clear DROP, or nothing (R67). -/
theorem writeTarget_cases (s : State) (t : Target) (v : Word) :
    (t = .opa ∧ writeTarget s t v = { s with opa := v }) ∨
      (t = .opb ∧ writeTarget s t v = { s with opb := v }) ∨
      (t = .cmd ∧ writeTarget s t v = requestCommand s v) ∨
      (t = .status ∧ writeTarget s t v = { s with status := s.status.onWrite v }) ∨
      writeTarget s t v = s := by
  cases t <;> simp [writeTarget]

/-- Everything the access of a cycle can do (R61, R64, R67). -/
theorem accessEffect_cases (s : State) (p : PortIn) :
    accessEffect s p = s ∨
      (p.sel = true ∧ p.we = true ∧ ∃ t, mapAddr p.addr = some t ∧
        accessEffect s p = writeTarget s t p.wdata) := by
  unfold accessEffect
  split
  · rename_i h
    simp only [Bool.and_eq_true] at h
    split
    · rename_i t ht
      exact .inr ⟨h.1, h.2, t, ht, rfl⟩
    · exact .inl rfl
  · exact .inl rfl

/-- A cycle that presents no write leaves the block as it was, but for the model's record of the cycle (R67). -/
theorem busCycle_of_not_write (s : State) (p : PortIn) (h : (p.sel && p.we) = false) :
    busCycle s p = recordCycle s p := by
  simp [busCycle, accessEffect, h]

/-- The ENGINE's part of an edge: nothing, a further edge of the run phase, or the completion (R103). -/
theorem engineEdge_cases (s s' : State) :
    (s.phase = .idle ∧ engineEdge s s' = .next s') ∨
      (s.phase = .run ∧ 1 < s.remaining ∧ engineEdge s s' = .next (runOn s')) ∨
      (s.phase = .run ∧ s.remaining ≤ 1 ∧
        engineEdge s s' = .next (complete s' (commandOutcome s'.latW s'.latA s'.latB))) := by
  unfold engineEdge
  cases hp : s.phase with
  | idle => simp
  | run =>
    by_cases hr : s.remaining ≤ 1
    · simp [hr, runCommand_eq_complete]
    · simp [hr]; omega

/-- Everything a step can do (R60, R69, R280, R283): a reset edge; before the first reset edge an idle cycle or the
refusal of an access; after it the HOST's access and then the ENGINE's edge. -/
theorem step_cases (s : State) :
    ((currentInput s).rst = true ∧ step s = .next (resetEdge (recordCycle s (currentInput s)))) ∨
      ((currentInput s).rst = false ∧ s.resetSeen = true ∧
        step s = engineEdge s (busCycle s (currentInput s))) ∨
      ((currentInput s).rst = false ∧ s.resetSeen = false ∧ (currentInput s).sel = true ∧
        step s = .refused .beforeFirstReset) ∨
      ((currentInput s).rst = false ∧ s.resetSeen = false ∧ (currentInput s).sel = false ∧
        step s = .next (recordCycle s (currentInput s))) := by
  unfold step clockCycle workingCycle powerUpCycle resetCycle
  cases h1 : (currentInput s).rst <;> cases h2 : s.resetSeen <;> cases h3 : (currentInput s).sel <;> simp

/-- Every kind has a code of at most 12 (R35). -/
theorem Kind.code_le (k : Kind) : k.code.toNat ≤ 12 := by cases k <;> decide

/-- The kinds of `kindTable` stand in the order of their codes (R35). -/
theorem kindTable_code : ∀ i : Fin 13, (kindTable[i]).code = BitVec.ofNat 4 i.val := by decide

/-- Field KIND of a control word is the code of its kind (R34). -/
theorem Control.word_kind (c : Control) : c.word.extractLsb' 0 4 = c.kind.code :=
  BitVec.extractLsb'_append_eq_right

/-- The reserved bits of a control word are 0 (R34). -/
theorem Control.word_reserved (c : Control) :
    c.word.extractLsb' 10 6 = 0 ∧ c.word.extractLsb' 22 2 = 0 ∧ c.word.extractLsb' 30 2 = 0 := by
  have bits (start len : Nat) (h : ∀ i, i < len → c.word.getLsbD (start + i) = false) :
      c.word.extractLsb' start len = 0 := by
    apply BitVec.eq_of_getLsbD_eq
    intro i hi
    simp [hi, h i hi]
  refine ⟨bits 10 6 ?_, bits 22 2 ?_, bits 30 2 ?_⟩ <;> intro i hi <;> interval_cases i <;>
    · simp only [Control.word]
      repeat rw [BitVec.getLsbD_append]
      simp

/-- Every control word is one that R34 and R35 allow. -/
theorem Control.word_legal (c : Control) : ControlWordLegal c.word :=
  ⟨c.word_reserved.1, c.word_reserved.2.1, c.word_reserved.2.2, c.word_kind ▸ c.kind.code_le⟩

/-- Every entry built from a control word, the open ones of an UNSUP outcome among them, has a legal control word. -/
theorem entryOf_legal (c : Control) (v1 v2 v3 : Word) : ControlWordLegal (entryOf c v1 v2 v3).tw0 := c.word_legal

/-- What a completion leaves in an entry of the trace buffer (R33, R103). -/
theorem writeTrace_getElem (t : Vector TraceEntry 64) (es : List TraceEntry) (k : Fin 64) :
    (writeTrace t es)[k] = (es[k.val]?).getD t[k] := by
  simp [writeTrace]

/-- An entry that the outcome holds is the entry the buffer holds after the completion. -/
theorem writeTrace_of_some (t : Vector TraceEntry 64) (es : List TraceEntry) (k : Fin 64) (e : TraceEntry)
    (h : es[k.val]? = some e) : (writeTrace t es)[k] = e := by
  rw [writeTrace_getElem, h]; rfl

/-- An entry above the outcome's length is not written. -/
theorem writeTrace_of_le (t : Vector TraceEntry 64) (es : List TraceEntry) (k : Fin 64)
    (h : es.length ≤ k.val) : (writeTrace t es)[k] = t[k] := by
  rw [writeTrace_getElem, List.getElem?_eq_none h]; rfl

/-- `bitlength` is 1 to 32 (R114). -/
theorem bitLength_range (v : Word) : 1 ≤ bitLength v ∧ bitLength v ≤ 32 := by
  unfold bitLength
  split
  · omega
  · split
    · omega
    · rename_i _ hv
      have hne : u32 v ≠ 0 := fun h => hv (BitVec.eq_of_toNat_eq (by simpa [u32] using h))
      have : Nat.log2 (u32 v) < 32 := (Nat.log2_lt hne).2 (by simpa [u32] using v.isLt)
      omega

/-- The number of entries of the column traces. -/
theorem addColumns_length (a b : Word) (n p : Nat) (c : Bool) : (addColumns a b n p c).length = n := by
  induction n generalizing p c with
  | zero => rfl
  | succ n ih => simp [addColumns, ih]

theorem subColumns_length (a b : Word) (n p : Nat) (c : Bool) : (subColumns a b n p c).length = n := by
  induction n generalizing p c with
  | zero => rfl
  | succ n ih => simp [subColumns, ih]

theorem mulSteps_length (a b : Word) (n k : Nat) (acc : Word) : (mulSteps a b n k acc).length = n := by
  induction n generalizing k acc with
  | zero => rfl
  | succ n ih => simp [mulSteps, ih]

theorem divSteps_length (a b : Word) (n : Nat) (r q : Word) : (divSteps a b n r q).length = n := by
  induction n generalizing r q with
  | zero => rfl
  | succ n ih => simp [divSteps, ih]

theorem andSteps_length (a b : Word) (n : Nat) : (andSteps a b n).length = n := by
  induction n with
  | zero => rfl
  | succ n ih => simp [andSteps, ih]

theorem orSteps_length (a b : Word) (n : Nat) : (orSteps a b n).length = n := by
  induction n with
  | zero => rfl
  | succ n ih => simp [orSteps, ih]

/-- The population count trace has at most one entry per iteration and the complete entry (R197). -/
theorem popSteps_length (a : Word) (n : Nat) (v : Word) (i : Nat) :
    1 ≤ (popSteps a n v i).length ∧ (popSteps a n v i).length ≤ n + 1 := by
  induction n generalizing v i with
  | zero => simp [popSteps]
  | succ n ih =>
    unfold popSteps
    split
    · simp
    · simp only [List.length_cons]
      have := ih (v &&& sub32 v 1) (i + 1)
      omega

end Sys2Proof.Machine
end

