-- ==== Sys2Proof/Laws/PerInstr.lean ====
section
/-! SUPPORT. The per-instruction family `RoundTrip`: the decoder gives back the operation whose command word the
encoder writes, that word is legal, and it is the word its code alone determines (R81, R83). -/

namespace Sys2Proof.Laws.RoundTrip

/-- Decoding the command word of `i` gives `i`; the word is legal and is its own code, zero-extended. -/
def Statement (i : Instr) : Prop :=
  i.wellFormed = true → decode (encode i) = .ok i ∧ wordLegal (encode i) = true ∧
    encode i = i.code.setWidth 32

theorem add : Statement .add := fun _ => ⟨rfl, rfl, rfl⟩
theorem sub : Statement .sub := fun _ => ⟨rfl, rfl, rfl⟩
theorem mul : Statement .mul := fun _ => ⟨rfl, rfl, rfl⟩
theorem div : Statement .div := fun _ => ⟨rfl, rfl, rfl⟩
theorem and : Statement .and := fun _ => ⟨rfl, rfl, rfl⟩
theorem or : Statement .or := fun _ => ⟨rfl, rfl, rfl⟩
theorem even : Statement .even := fun _ => ⟨rfl, rfl, rfl⟩
theorem popcnt : Statement .popcnt := fun _ => ⟨rfl, rfl, rfl⟩
theorem modp2 : Statement .modp2 := fun _ => ⟨rfl, rfl, rfl⟩
theorem ispow2 : Statement .ispow2 := fun _ => ⟨rfl, rfl, rfl⟩
theorem pow : Statement .pow := fun _ => ⟨rfl, rfl, rfl⟩

end Sys2Proof.Laws.RoundTrip
end

