-- ==== Sys2Proof/Tests/Slice0.lean ====
section
/-! SUPPORT. Tests of the model against the spec's own worked examples (95_test_vectors.md and the traces of the family
files), the smoke test of WellFormed, and one witness for every statement that has hypotheses. -/

namespace Sys2Proof.Tests

open Sys2Proof Sys2Proof.Machine

/-! ## WellFormed and Decode: words written out field by field from R80 and R81 -/

/-- RSVD (28 bits) then OP (4 bits), as R80 lays a command word out. -/
def wordFromFields (rsvd : BitVec 28) (op : BitVec 4) : Word := rsvd ++ op

theorem test_reserved_bit_is_ill_formed : wordLegal 0x00000010 = false ∧ reservedClear 0x00000010 = false := by decide
theorem test_code_eleven_is_ill_formed : wordLegal 0x0000000B = false ∧ opInRange 0x0000000B = false := by decide
theorem test_code_ten_is_well_formed : wordLegal 0x0000000A = true := by decide
theorem test_every_operation_is_well_formed : ∀ i ∈ operationList, i.wellFormed = true := by decide

theorem test_decode_add : decode (wordFromFields 0 0b0000) = .ok .add := by decide
theorem test_decode_sub : decode (wordFromFields 0 0b0001) = .ok .sub := by decide
theorem test_decode_mul : decode (wordFromFields 0 0b0010) = .ok .mul := by decide
theorem test_decode_div : decode (wordFromFields 0 0b0011) = .ok .div := by decide
theorem test_decode_and : decode (wordFromFields 0 0b0100) = .ok .and := by decide
theorem test_decode_or : decode (wordFromFields 0 0b0101) = .ok .or := by decide
theorem test_decode_even : decode (wordFromFields 0 0b0110) = .ok .even := by decide
theorem test_decode_popcnt : decode (wordFromFields 0 0b0111) = .ok .popcnt := by decide
theorem test_decode_modp2 : decode (wordFromFields 0 0b1000) = .ok .modp2 := by decide
theorem test_decode_ispow2 : decode (wordFromFields 0 0b1001) = .ok .ispow2 := by decide
theorem test_decode_pow : decode (wordFromFields 0 0b1010) = .ok .pow := by decide
theorem test_decode_code_eleven : decode (wordFromFields 0 0b1011) = .error .opAboveTen := by decide
theorem test_decode_reserved_bit : decode (wordFromFields 1 0b0011) = .error .reservedBitSet := by decide

/-! ## The operations, on one completion edge -/

/-- The reset state with the command word of `i` and its operands latched. -/
def latched (i : Instr) (a b : Word) : State := { State.reset with latW := encode i, latA := a, latB := b }

/-- The state after the completion of `i`. -/
def after (i : Instr) (a b : Word) : State :=
  match exec i (latched i a b) with
  | .next t => t
  | .fault _ => State.reset
  | .refused _ => State.reset

/-- RESULT, RESULT2, STATUS and TRACE_HDR of a state, as a HOST reads them. -/
def readout (s : State) : Nat × Nat × Nat × Nat :=
  (s.result.toNat, s.result2.toNat, s.status.word.toNat, s.traceHdr.word.toNat)

/-- An entry of the trace buffer as four numbers. -/
def entryNats (s : State) (k : Fin 64) : Nat × Nat × Nat × Nat :=
  (s.trace[k].tw0.toNat, s.trace[k].tv1.toNat, s.trace[k].tv2.toNat, s.trace[k].tv3.toNat)

/-- 95 W1. -/
theorem test_add : readout (after .add 5 3) = (8, 0, 0x00000002, 0x00040400) := by decide
/-- 95 section 2.1, trace of `add(-5, 3)`, entries 31 and 0. -/
theorem test_add_trace : entryNats (after .add 0xFFFFFFFB 3) 31 = (0x001F0010, 0, 0, 0) ∧
    entryNats (after .add 0xFFFFFFFB 3) 0 = (0x00000200, 0, 0, 0) := by decide
/-- 95 section 2.2, the row 0x80000000 - 1. -/
theorem test_sub : readout (after .sub 0x80000000 1) = (0x7FFFFFFF, 0, 0x00000002, 0x00212101) := by decide
/-- 41_add_subtract.md, trace of `subtract(3, 5)`. -/
theorem test_sub_trace : entryNats (after .sub 3 5) 0 = (0x001C0031, 0, 0, 0) ∧
    entryNats (after .sub 3 5) 2 = (0x00090011, 0, 0, 0) := by decide
/-- 95 section 2.3, the row 46341 * 46341. -/
theorem test_mul : readout (after .mul 0xB505 0xB505) = (0x80001219, 0, 0x00000002, 0x00100802) := by decide
/-- 95 section 2.3, trace of `multiply(3, 256)`. -/
theorem test_mul_trace : entryNats (after .mul 3 256) 8 = (0x000A0082, 0x300, 0x300, 0x300) ∧
    entryNats (after .mul 3 256) 7 = (0x00000072, 384, 0, 0) := by decide
/-- 95 section 2.4, the row 0x7FFFFFFF / 0x40000001, and a divisor of 0 with a negative dividend. -/
theorem test_div : readout (after .div 0x7FFFFFFF 0x40000001) = (1, 0x3FFFFFFE, 0x00000002, 0x001F1F03) ∧
    readout (after .div 0xFFFFFFF9 0) = (0, 0, 0x00000106, 0x00000003) := by decide
/-- 95 section 2.4, trace of `divide(100, 7)`. -/
theorem test_div_trace : entryNats (after .div 100 7) 4 = (0x00290023, 11, 4, 3) ∧
    entryNats (after .div 100 7) 6 = (0x00000003, 2, 2, 14) := by decide
/-- 95 sections 2.3 and 2.4: STATUS of the unsupported outcomes. -/
theorem test_unsupported_status : (after .mul 0xFFFFFFFF 2).status.word = 0x0000000A ∧
    (after .div 7 0xFFFFFFFE).status.word = 0x0000000A := by decide
/-- 95 section 2.5, `and(-1, 5)`. -/
theorem test_and : readout (after .and 0xFFFFFFFF 5) = (5, 0, 0x00000002, 0x00202004) ∧
    entryNats (after .and 0xFFFFFFFF 5) 29 = (0x000B0024, 0, 0, 0) := by decide
/-- 43_bitwise_checks.md, OR trace of 12 and 10. -/
theorem test_or : readout (after .or 12 10) = (14, 0, 0x00000002, 0x00040405) ∧
    entryNats (after .or 12 10) 1 = (0x00090025, 0, 0, 0) := by decide
/-- 95 section 2.6, the rows 6 and -1. -/
theorem test_even : entryNats (after .even 6 0) 0 = (0x00080006, 6, 1, 0) ∧
    readout (after .even 0xFFFFFFFF 0) = (0, 0, 0x00000002, 0x00012006) := by decide
/-- 95 section 2.7, the row -1, the longest trace. -/
theorem test_popcnt : readout (after .popcnt 0xFFFFFFFF 0) = (32, 0, 0x00000002, 0x00212007) ∧
    entryNats (after .popcnt 0xFFFFFFFF 0) 32 = (0x20000008, 0xFFFFFFFF, 0, 0) := by decide
/-- 43_bitwise_checks.md, trace of `countSetBits(12)`. -/
theorem test_popcnt_trace : entryNats (after .popcnt 12 0) 1 = (0x02000007, 8, 7, 0) := by decide
/-- 95 section 2.9, the rows -1 mod 8 and 7 mod 0x80000000. -/
theorem test_modp2 : readout (after .modp2 0xFFFFFFFF 8) = (7, 0, 0x00000002, 0x00022008) ∧
    readout (after .modp2 7 0x80000000) = (0, 0, 0x00000206, 0x00000008) := by decide
/-- 95 section 2.9, entry 1 of -1 mod 8. -/
theorem test_modp2_trace : entryNats (after .modp2 0xFFFFFFFF 8) 1 = (0x0000000C, 0xFFFFFFFF, 7, 7) := by
  decide
/-- 95 section 2.8, the rows 64 and 0x80000000. -/
theorem test_ispow2 : entryNats (after .ispow2 0x40 0) 1 = (0x0008000A, 0x40, 0, 0) ∧
    readout (after .ispow2 0x80000000 0) = (0, 0, 0x00000002, 0x00022009) := by decide
/-- 95 section 2.10: 3^34, rounded. -/
theorem test_pow_rounds : readout (after .pow 3 34) = (0x79881944, 0x434D9FE7, 0x00000002, 0x0000000A) := by
  decide +kernel
/-- 95 section 2.10: 10^-2, and (-2)^-1075, which underflows to -0. -/
theorem test_pow_negative_exponent : readout (after .pow 10 0xFFFFFFFE) = (0x47AE147C, 0x3F847AE1, 2, 10) ∧
    readout (after .pow 0xFFFFFFFE 0xFFFFFBCD) = (0, 0x80000000, 2, 10) := by decide +kernel

/-! ## The bus, the life of a command and reset -/

/-- A state in which the command word `w` is one edge from completion. -/
def due (w a b : Word) : State := loadCommand { State.reset with opa := a, opb := b } w

/-- The next state of a step, and the reset state where it stops. -/
def stepped (s : State) : State :=
  match step s with
  | .next t => t
  | .fault _ => State.reset
  | .refused _ => State.reset

/-- 95 section 2.11, the last row: OP 3 with reserved bits, OPB = 0. -/
theorem test_illegal_word : readout (stepped (due 0xFFFFFFF3 7 0)) = (0, 0, 0x00000306, 0x00000003) := by
  decide
/-- 95 section 2.12: a CMD write while BUSY = 1 sets DROP; here at the completion edge (R69). -/
theorem test_drop_at_completion :
    (stepped { due 0 5 3 with inputs := [writeAccess 0x008 1] }).status.word = 0x00000012 := by decide
/-- 95 section 2.12: an unmapped and a misaligned read get `err` = 1 and read 0. -/
theorem test_unmapped_read : (stepped { State.reset with inputs := [readAccess 0x01C] }).port =
      { rdata := 0, err := true, busy := false, done := false } ∧
    (stepped { State.reset with inputs := [readAccess 0x002] }).port.err = true := by decide
/-- 95 section 2.12: a write of STATUS clears only DROP. -/
theorem test_clear_drop :
    (stepped { after .add 5 3 with
      status := (after .add 5 3).status.onDrop, inputs := [writeAccess 0x00C 0xFFFFFFFF] }).status.word = 2 := by
  decide
/-- 95 section 2.12: a reset edge while BUSY = 1 abandons the command. -/
theorem test_reset_abandons :
    (stepped { due 3 5 0 with inputs := [{ PortIn.idle with rst := true }] }).status.word = 0 := by decide
/-- R64, R33: trace word TW0 of entry 0 reads at 0x400; an entry above LEN reads 0. -/
theorem test_trace_read :
    (stepped { after .add 5 3 with inputs := [readAccess 0x400] }).port.rdata = 0x000C0030 ∧
      (stepped { after .add 5 3 with inputs := [readAccess 0x680] }).port.rdata = 0 := by decide
/-- R283, U6: an access before the first reset edge has no meaning. -/
theorem test_access_before_reset :
    step { State.reset with resetSeen := false, inputs := [readAccess 0] } = .refused .beforeFirstReset := rfl

/-! ## Witnesses: for every statement with hypotheses, a state or operands that meet them all -/

/-- An idle block, out of reset, to which the HOST writes the command word `w`. -/
def idleWithCmd (w : Word) : State := { State.reset with inputs := [writeAccess 0x008 w] }

/-- A block that runs ADD, with `n` edges left, to which the HOST writes CMD. -/
def busyWithCmd (n : Nat) : State := { due 0 5 3 with remaining := n, inputs := [writeAccess 0x008 1] }

theorem witness_trace_width : (33 : Nat) = max (bitLength 0xFFFFFFFB) (bitLength 3) + 1 ∧ (32 : Nat) < 33 := by decide
theorem witness_mul_supported : 0 ≤ s32 (latched .mul 0x7FFFFFFF 0).latA ∧ 0 ≤ s32 (latched .mul 0x7FFFFFFF 0).latB := by
  decide
theorem witness_mul_unsupported : s32 (latched .mul 0 0xFFFFFFFF).latA < 0 ∨ s32 (latched .mul 0 0xFFFFFFFF).latB < 0 := by
  decide
theorem witness_div_by_zero : s32 (latched .div 0x80000000 0).latB = 0 := by decide
theorem witness_div_unsupported : s32 (latched .div 0 0xFFFFFFFF).latB ≠ 0 ∧
    (s32 (latched .div 0 0xFFFFFFFF).latA < 0 ∨ s32 (latched .div 0 0xFFFFFFFF).latB < 0) := by decide
theorem witness_div_supported : 0 ≤ s32 (latched .div 0 1).latA ∧ 0 < s32 (latched .div 0 1).latB := by decide
theorem witness_bit_trace_width : (1 : Nat) = max (bitLength 0) (bitLength 0) ∧ (0 : Nat) < 1 := by decide
theorem witness_popcnt_entries : (popcntOutcome 1).entries[0]? = some (popEntry 1 0) ∧
    (popcntOutcome 1).entries[1]? = some (popEntry 1 1) ∧ (popEntry 1 0).kindField = 7 ∧
    (popEntry 1 1).kindField = 8 := by decide
theorem witness_modp2_power : (∃ k, k ≤ 30 ∧ u32 (latched .modp2 5 1).latB = 2 ^ k) ∧
    ∃ k, k ≤ 30 ∧ u32 (latched .modp2 5 0x40000000).latB = 2 ^ k :=
  ⟨⟨0, by decide, by decide⟩, ⟨30, by decide, by decide⟩⟩
theorem witness_modp2_invalid : ¬ ∃ k, k ≤ 30 ∧ u32 (latched .modp2 5 0x80000000).latB = 2 ^ k := by
  rintro ⟨k, hk, h⟩
  have : (2 : Nat) ^ 31 = 2 ^ k := by rw [← h]; decide
  have := Nat.pow_right_injective (le_refl 2) this
  omega
theorem witness_pow_signs : s32 0 < s32 1 ∧ s32 0xFFFFFFFF < 0 := by decide
theorem witness_pow_exact : 0 ≤ s32 53 ∧ (s32 0xFFFFFFFE).natAbs ^ (s32 53).toNat ≤ 2 ^ 53 := by decide
theorem witness_fmul_finite : isFinite 0x7FEFFFFFFFFFFFFF = true ∧ isFinite 0x0000000000000001 = true := by decide
theorem witness_fmul_infinite : expField 0x7FF0000000000000 = 2047 ∧ fracField 0x7FF0000000000000 = 0 ∧
    isNan 0xFFF0000000000000 = false ∧ ¬ isFinite 0xFFF0000000000000 = true := by decide
theorem witness_fdiv_divisor : isFinite 0x0000000000000001 = true ∧ f64Value 0x0000000000000001 ≠ 0 := by
  refine ⟨by decide, ?_⟩
  have h : fvalue 1#64 = .finite false 1 (-1074) := by decide
  simp only [f64Value, show (0x0000000000000001 : F64) = 1#64 from rfl, h]
  simp
theorem witness_rounds_both_ranges : |(0 : Rat)| < 2 ^ 1024 - 2 ^ 970 ∧ (2 : Rat) ^ 1024 - 2 ^ 970 ≤ |(2 : Rat) ^ 1024| := by
  constructor
  · rw [abs_zero]; exact sub_pos.2 (pow_lt_pow_right₀ (by norm_num) (by norm_num))
  · rw [abs_of_pos (by positivity)]; exact sub_le_self _ (by positivity)
theorem witness_classification : wordLegal 0x13 = false ∧ (3 : Word) = 3 ∧ s32 0 = 0 ∧ (8 : Word) = 8 := by decide
theorem witness_bitlength_cases : s32 0x80000000 < 0 ∧ 0 < s32 1 ∧ 0 < s32 0x7FFFFFFF ∧ bitLength 0x7FFFFFFF ≤ 31 := by
  decide
theorem witness_step_runs : (due 0 5 3).resetSeen = true ∧ (currentInput (due 0 5 3)).rst = false ∧
    (due 0 5 3).phase = .run ∧ (due 0 5 3).status.busy = true ∧ (due 0 5 3).remaining ≤ 1 ∧
    decode (due 0 5 3).latW = .ok .add := by decide
theorem witness_fetch_word : decode (tableWord 32 10) = .ok .pow := by decide
theorem witness_accept : Presents (idleWithCmd 0xFFFFFFF3) (writeAccess 0x008 0xFFFFFFF3) [] ∧
    (idleWithCmd 0xFFFFFFF3).status.busy = false ∧ (idleWithCmd 0xFFFFFFF3).phase = .idle ∧
    wordLegal 0xFFFFFFF3 = false := ⟨⟨rfl, rfl, rfl⟩, rfl, rfl, rfl⟩
theorem witness_accept_schedule (l : Nat) : ∀ p ∈ ([] : List PortIn).take l, p.rst = false := by simp
theorem witness_drop : Presents (busyWithCmd 2) (writeAccess 0x008 1) [] ∧ (busyWithCmd 2).status.busy = true ∧
    (busyWithCmd 2).phase = .run ∧ 1 < (busyWithCmd 2).remaining ∧
    Presents (busyWithCmd 1) (writeAccess 0x008 1) [] ∧ (busyWithCmd 1).status.busy = true ∧
    (busyWithCmd 1).phase = .run ∧ (busyWithCmd 1).remaining ≤ 1 :=
  ⟨⟨rfl, rfl, rfl⟩, rfl, rfl, by decide, ⟨rfl, rfl, rfl⟩, rfl, rfl, by decide⟩
theorem witness_running : (busyWithCmd 2).resetSeen = true ∧ 1 ≤ (busyWithCmd 2).remaining ∧
    (∀ p ∈ [PortIn.idle, PortIn.idle].take 2, p.rst = false) ∧
    ∀ p ∈ [writeAccess 0 7, writeAccess 4 9].take 2, p.rst = false := by decide
theorem witness_first_poll : Presents { State.reset with inputs := [writeAccess 0x008 0, readAccess 0x00C] }
    (writeAccess 0x008 0) [readAccess 0x00C] ∧ State.reset.status.busy = false ∧ State.reset.phase = .idle :=
  ⟨⟨rfl, rfl, rfl⟩, rfl, rfl⟩
theorem witness_reset_edge : ({ busyWithCmd 2 with inputs := [{ PortIn.idle with rst := true }] } : State).inputs =
    [{ PortIn.idle with rst := true }] := rfl
theorem witness_invariant : BlockInvariant State.reset ∧ ∃ t, step State.reset = .next t := by
  refine ⟨⟨?_, ?_, ?_, ?_, ?_, ?_⟩, _, rfl⟩ <;>
    simp [StatusLegal, PhaseMatches, RunningConsistent, FreshAfterReset, OutcomeBelongs, TraceControlLegal, State.reset,
      Status.zero, TraceHdr.zero]
theorem witness_never_stops : State.reset.resetSeen = true ∧
    ({ State.reset with resetSeen := false } : State).resetSeen = false := ⟨rfl, rfl⟩
theorem witness_idle : State.reset.phase = .idle ∧ State.reset.inputs = [] := ⟨rfl, rfl⟩
theorem witness_unmapped : (readAccess 0x01C).sel = true ∧ (readAccess 0x01C).rst = false ∧
    mapAddr (readAccess 0x01C).addr = none ∧ mapAddr (readAccess 0x400).addr = some (.trace 0 0) := by decide
theorem witness_reads_when_done : (after .add 5 3).status.busy = false := by decide
theorem witness_busy_reads : (due 0 5 3).status.busy = true ∧ mapAddr (readAccess 0x010).addr = some .result ∧
    Target.result.holdsOutcome = true ∧ mapAddr (readAccess 0x000).addr = some .opa ∧
    Target.opa.holdsOutcome = false := by decide
theorem witness_idle_write (v : Word) (a : Addr) :
    Presents { State.reset with inputs := [writeAccess a v] } (writeAccess a v) [] := ⟨rfl, rfl, rfl⟩
/-- A block that runs ADD, with `n` edges left, to which the HOST writes `v` at the offset `a`. -/
def busyWithWrite (n : Nat) (a : Addr) (v : Word) : State :=
  { due 0 5 3 with remaining := n, inputs := [writeAccess a v] }

theorem witness_busy_write (v : Word) : ∀ a ∈ ([0x000, 0x004, 0x00C, 0x018, 0x7FC] : List Addr),
    Presents (busyWithWrite 2 a v) (writeAccess a v) [] ∧ mapAddr a ≠ none ∧ a ≠ 0x008 ∧
      (busyWithWrite 2 a v).phase = .run ∧ 1 < (busyWithWrite 2 a v).remaining ∧
      (busyWithWrite 1 a v).phase = .run ∧ (busyWithWrite 1 a v).remaining ≤ 1 := by
  intro a ha
  exact ⟨⟨rfl, rfl, rfl⟩, by revert a; decide, by revert a; decide, rfl, Nat.lt_succ_self 1, rfl, le_refl 1⟩
theorem witness_write_answers : (∃ t, step (busyWithWrite 1 0x000 7) = .next t) ∧
    ∃ t, step (busyWithWrite 2 0x004 7) = .next t := ⟨⟨_, rfl⟩, _, rfl⟩
/-- R288: an operand written in a running block reads back in the next cycle; at the completion edge too (R69). -/
theorem test_busy_operand_write : (outputs (stepped (busyWithWrite 1 0x000 7)) (readAccess 0x000)).rdata = 7 ∧
    (stepped (busyWithWrite 1 0x000 7)).result = 8 := by decide
theorem witness_notation : (BusReg.result2, (0x014 : Addr)) ∈ [(BusReg.opa, (0x000 : Addr)), (.opb, 0x004), (.cmd, 0x008),
    (.status, 0x00C), (.result, 0x010), (.result2, 0x014), (.traceHdr, 0x018)] ∧
    ([5, 9] : List Word)[1]? = some 9 := by decide

theorem witness_window : mapAddr 0x7FC = some (.trace 63 3) := by decide
theorem witness_sideband : ∃ t, step (due 0 5 3) = .next t := ⟨_, rfl⟩
theorem witness_dutiful : HostDutiful (due 0 5 3) (readAccess 0x00C) := by
  intro _ _ t ht
  have : t = .status := by
    have h : mapAddr (readAccess 0x00C).addr = some .status := by decide
    rw [h] at ht; exact (Option.some.inj ht).symm
  subst this; rfl
/-- A HOST at the STATUS read of a WAIT, with a block just out of reset. -/
def waiting : Bench := { host := { prog := (Pseudo.wait 0 0).expand, pc := 1, vars := [] }, block := State.reset }

theorem witness_wait : waiting.host.prog = (Pseudo.wait 0 0).expand ∧ waiting.host.pc = 1 ∧
    waiting.block.resetSeen = true := ⟨rfl, rfl, rfl⟩

end Sys2Proof.Tests
end

section
/-! Facts about the reset state, the writes of STATUS, the completion and the register map. -/

namespace Sys2Proof.Machine

/-- A write of STATUS changes nothing but DROP (R25). -/
theorem status_onWrite_eq (t : Status) (v : Word) :
    t.onWrite v = { t with drop := t.drop && !v.getLsbD 4 } := by
  unfold Status.onWrite
  split <;> simp_all

/-- LEN counts no entry that the outcome does not hold, also where its 6 bits wrap (R32). -/
theorem CmdOutcome.len_le (o : CmdOutcome) : o.len.toNat ≤ o.entries.length := by
  simpa [CmdOutcome.len] using Nat.mod_le _ _

/-- In a block that is not busy a trace entry at or above LEN reads 0 (R33). -/
theorem readTarget_trace_of_len_le (s : State) (k : Fin 64) (j : Fin 4) (hbusy : s.status.busy = false)
    (hlen : s.traceHdr.len.toNat ≤ k.val) : readTarget s (.trace k j) = 0 := by
  simp [readTarget, heldWord, hbusy, Nat.not_lt.2 hlen]

/-- A completion ends the command (R103). -/
theorem complete_completed (s : State) (o : CmdOutcome) : Completed (complete s o) := ⟨rfl, rfl, rfl⟩

/-- A completion writes the whole outcome (R103). -/
theorem complete_holdsOutcome (s : State) (o : CmdOutcome) : HoldsOutcome (complete s o) s.latW o :=
  ⟨rfl, rfl, rfl, fun k e he => writeTrace_of_some s.trace o.entries k e he, rfl, rfl, rfl⟩

/-- A completion leaves the working registers as they are (log entry 8). -/
theorem complete_keepsWorkingRegisters (s : State) (o : CmdOutcome) :
    KeepsWorkingRegisters s (complete s o) := ⟨rfl, rfl, rfl, rfl⟩

/-- The aligned word under a byte address below STATUS is OPA, OPB or CMD (R63, R66). -/
theorem mapAddr_below_status (a : Addr) (h : a.toNat < 0x00C) :
    mapAddr (a &&& 0xFFC) = some .opa ∨ mapAddr (a &&& 0xFFC) = some .opb ∨
      mapAddr (a &&& 0xFFC) = some .cmd := by
  have small : ∀ n : Fin 12, mapAddr (BitVec.ofNat 12 n.val &&& 0xFFC) = some .opa ∨
      mapAddr (BitVec.ofNat 12 n.val &&& 0xFFC) = some .opb ∨
      mapAddr (BitVec.ofNat 12 n.val &&& 0xFFC) = some .cmd := by decide
  simpa using small ⟨a.toNat, h⟩

/-- A completion leaves the bytes of OPA, OPB and CMD. -/
theorem complete_windowByte (s : State) (o : CmdOutcome) (a : Addr) (h : a.toNat < 0x00C) :
    windowByte (complete s o) a = windowByte s a := by
  unfold windowByte
  obtain hm | hm | hm := mapAddr_below_status a h <;> rw [hm] <;> rfl

/-- A completion writes nothing beside its outcome (R103). -/
theorem complete_frame (s : State) (o : CmdOutcome) :
    CompletionFrame s (complete s o) o.entries.length :=
  ⟨rfl, rfl, rfl, rfl, rfl, rfl, rfl, rfl, rfl, rfl, rfl, rfl,
    fun k hk => writeTrace_of_le s.trace o.entries k hk,
    fun k j hk => readTarget_trace_of_len_le _ k j rfl (o.len_le.trans hk),
    fun a ha => complete_windowByte s o a ha⟩

/-- Everything a mapped offset can name (R63): one of the four registers that a write can change, at its offset, or a
register that holds a part of the outcome. -/
theorem mapAddr_cases {a : Addr} {t : Target} (h : mapAddr a = some t) :
    (t = .opa ∧ a = 0x000) ∨ (t = .opb ∧ a = 0x004) ∨ (t = .cmd ∧ a = 0x008) ∨ (t = .status ∧ a = 0x00C) ∨
      t.holdsOutcome = true := by
  unfold mapAddr at h
  split at h
  · cases h
  · split at h
    · cases h; simp [Target.holdsOutcome]
    · split at h <;> cases h <;> simp [Target.holdsOutcome] <;>
        exact BitVec.eq_of_toNat_eq (by assumption)

/-- A write of a register that holds a part of the outcome is ignored (R67). -/
theorem writeTarget_of_holdsOutcome (s : State) {t : Target} (v : Word) (h : t.holdsOutcome = true) :
    writeTarget s t v = s := by
  cases t <;> cases h <;> rfl

end Sys2Proof.Machine
end

section
/-! What the HOST's access and the ENGINE's edge leave unchanged: the output ports of the cycle, the operands, and the
running command. -/

namespace Sys2Proof.Machine

/-- What a running command rests on: the latches, the CMD readback, the edges left, and that it runs (R36, R101). -/
structure SameCommand (s t : State) : Prop where
  phase : t.phase = s.phase
  busy : t.status.busy = s.status.busy
  remaining : t.remaining = s.remaining
  latW : t.latW = s.latW
  latA : t.latA = s.latA
  latB : t.latB = s.latB

/-- A request for a command to a running block leaves the running command (R102). -/
theorem requestCommand_sameCommand (s : State) (w : Word) (hbusy : s.status.busy = true) :
    SameCommand s (requestCommand s w) := by
  obtain ⟨hidle, -⟩ | ⟨-, hdrop⟩ := requestCommand_cases s w
  · simp [hbusy] at hidle
  · rw [hdrop]; constructor <;> rfl

/-- No write changes a running command (R288). -/
theorem writeTarget_sameCommand (s : State) (t : Target) (v : Word) (hbusy : s.status.busy = true) :
    SameCommand s (writeTarget s t v) := by
  obtain ⟨-, h⟩ | ⟨-, h⟩ | ⟨-, h⟩ | ⟨-, h⟩ | h := writeTarget_cases s t v <;> rw [h]
  · constructor <;> rfl
  · constructor <;> rfl
  · exact requestCommand_sameCommand s v hbusy
  · constructor <;> simp
  · constructor <;> rfl

/-- No access of a cycle changes a running command (R288). -/
theorem busCycle_sameCommand (s : State) (p : PortIn) (hbusy : s.status.busy = true) :
    SameCommand s (busCycle s p) := by
  unfold busCycle
  obtain h | ⟨-, -, t, -, h⟩ := accessEffect_cases (recordCycle s p) p <;> rw [h]
  · constructor <;> rfl
  · obtain ⟨hp, hb, hr, hw, hA, hB⟩ := writeTarget_sameCommand (recordCycle s p) t p.wdata hbusy
    exact ⟨hp, hb, hr, hw, hA, hB⟩

/-- A request for a command drives no output port. -/
theorem requestCommand_port (s : State) (w : Word) : (requestCommand s w).port = s.port := by
  obtain ⟨-, h⟩ | ⟨-, h⟩ := requestCommand_cases s w <;> rw [h] <;> rfl

/-- A write drives no output port. -/
theorem writeTarget_port (s : State) (t : Target) (v : Word) : (writeTarget s t v).port = s.port := by
  cases t
  case cmd => exact requestCommand_port s v
  all_goals rfl

/-- The port record of a cycle is what the block drives in it, from the state at its start (R61). -/
theorem busCycle_port (s : State) (p : PortIn) : (busCycle s p).port = outputs s p := by
  unfold busCycle
  obtain h | ⟨-, -, t, -, h⟩ := accessEffect_cases (recordCycle s p) p <;> rw [h]
  · rfl
  · exact writeTarget_port _ t _

/-- The ENGINE's edge gives a next state that keeps OPA, OPB and the record of the output ports. -/
theorem engineEdge_keeps {s s' t : State} (h : engineEdge s s' = .next t) :
    t.opa = s'.opa ∧ t.opb = s'.opb ∧ t.port = s'.port := by
  obtain ⟨-, he⟩ | ⟨-, -, he⟩ | ⟨-, -, he⟩ := engineEdge_cases s s' <;> rw [he] at h <;> cases h <;>
    exact ⟨rfl, rfl, rfl⟩

/-- Every step records the output ports of its cycle (R60, R61). -/
theorem step_port {s t : State} (h : step s = .next t) : t.port = outputs s (currentInput s) := by
  obtain ⟨-, he⟩ | ⟨-, -, he⟩ | ⟨-, -, -, he⟩ | ⟨-, -, -, he⟩ := step_cases s <;> rw [he] at h
  · cases h; rfl
  · exact (engineEdge_keeps h).2.2.trans (busCycle_port s _)
  · cases h
  · cases h; rfl

/-- A cycle out of reset is the access that the HOST presents, then the ENGINE's edge (R60, R69). -/
theorem step_of_presents {s : State} {p : PortIn} {rest : List PortIn} (h : Presents s p rest) :
    step s = engineEdge s (busCycle s p) := by
  obtain ⟨hseen, hinputs, hrst⟩ := h
  have hcur : currentInput s = p := by simp [currentInput, hinputs]
  simp [step, clockCycle, workingCycle, hcur, hrst, hseen]

end Sys2Proof.Machine
end

section
/-! Every outcome is one that STATUS and the trace buffer may hold (R25, R34, R35, R104). -/

namespace Sys2Proof.Machine

/-- Every entry has a control word that R34 and R35 allow. -/
def EntriesLegal (es : List TraceEntry) : Prop := ∀ e ∈ es, ControlWordLegal e.tw0

@[simp] theorem entriesLegal_nil : EntriesLegal [] := by simp [EntriesLegal]

@[simp] theorem entriesLegal_cons_entryOf (c : Control) (v1 v2 v3 : Word) (es : List TraceEntry) :
    EntriesLegal (entryOf c v1 v2 v3 :: es) ↔ EntriesLegal es := by
  simp [EntriesLegal, entryOf_legal]

@[simp] theorem entriesLegal_reverse (es : List TraceEntry) : EntriesLegal es.reverse ↔ EntriesLegal es := by
  simp [EntriesLegal]

theorem addColumns_legal (a b : Word) (n p : Nat) (c : Bool) : EntriesLegal (addColumns a b n p c) := by
  induction n generalizing p c with
  | zero => simp [addColumns]
  | succ n ih => simp [addColumns, ih]

theorem subColumns_legal (a b : Word) (n p : Nat) (c : Bool) : EntriesLegal (subColumns a b n p c) := by
  induction n generalizing p c with
  | zero => simp [subColumns]
  | succ n ih => simp [subColumns, ih]

theorem mulSteps_legal (a b : Word) (n k : Nat) (acc : Word) : EntriesLegal (mulSteps a b n k acc) := by
  induction n generalizing k acc with
  | zero => simp [mulSteps]
  | succ n ih => simp [mulSteps, ih]

theorem divSteps_legal (a b : Word) (n : Nat) (r q : Word) : EntriesLegal (divSteps a b n r q) := by
  induction n generalizing r q with
  | zero => simp [divSteps]
  | succ n ih => simp [divSteps, ih]

theorem andSteps_legal (a b : Word) (n : Nat) : EntriesLegal (andSteps a b n) := by
  induction n with
  | zero => simp [andSteps]
  | succ n ih => simp [andSteps, ih]

theorem orSteps_legal (a b : Word) (n : Nat) : EntriesLegal (orSteps a b n) := by
  induction n with
  | zero => simp [orSteps]
  | succ n ih => simp [orSteps, ih]

theorem popSteps_legal (a : Word) (n : Nat) (v : Word) (i : Nat) : EntriesLegal (popSteps a n v i) := by
  induction n generalizing v i with
  | zero => simp [popSteps]
  | succ n ih =>
    unfold popSteps
    split
    · simp
    · simp [ih]

/-- What R25 asks of ERR, ERRCODE and UNSUP, and R34 and R35 of the entries, said of an outcome (R104). -/
structure OutcomeLegal (o : CmdOutcome) : Prop where
  err_iff : o.err = false ↔ o.code = 0
  not_both : o.err = true → o.unsup = false
  code_le : o.code.toNat ≤ 3
  entries : EntriesLegal o.entries

theorem normalOutcome_legal (r r2 : Word) (padw : Nat) {es : List TraceEntry} (h : EntriesLegal es) :
    OutcomeLegal (normalOutcome r r2 padw es) :=
  ⟨by simp [normalOutcome], by simp [normalOutcome], by simp [normalOutcome], h⟩

theorem raiseError_legal (e : CmdError) : OutcomeLegal (raiseError e) := by
  cases e <;> exact ⟨by decide, by decide, by decide, entriesLegal_nil⟩

theorem unsupOutcome_legal (op : OpCode) (a b : Word) : OutcomeLegal (unsupOutcome op a b) := by
  refine ⟨by simp [unsupOutcome], by simp [unsupOutcome], by simp [unsupOutcome], ?_⟩
  intro e he
  obtain ⟨k, -, rfl⟩ := List.mem_map.1 he
  exact entryOf_legal _ _ _ _

theorem outcomeOf_legal (i : Instr) (a b : Word) : OutcomeLegal (outcomeOf i a b) := by
  cases i with
  | add => exact normalOutcome_legal _ _ _ (by simpa [addTrace] using addColumns_legal a b _ 0 false)
  | sub => exact normalOutcome_legal _ _ _ (by simpa [subTrace] using subColumns_legal a b _ 0 false)
  | mul =>
    simp only [outcomeOf, mulOutcome]
    split
    · exact unsupOutcome_legal _ a b
    · exact normalOutcome_legal _ _ _ (mulSteps_legal a b _ 0 0)
  | div =>
    simp only [outcomeOf, divOutcome]
    split
    · exact raiseError_legal _
    · split
      · exact unsupOutcome_legal _ a b
      · exact normalOutcome_legal _ _ _ (divSteps_legal a b _ 0 0)
  | and => exact normalOutcome_legal _ _ _ (andSteps_legal a b _)
  | or => exact normalOutcome_legal _ _ _ (orSteps_legal a b _)
  | even => exact normalOutcome_legal _ _ _ (by simp [evenTrace])
  | popcnt => exact normalOutcome_legal _ _ _ (popSteps_legal a 32 a 0)
  | modp2 =>
    simp only [outcomeOf, modp2Outcome]
    split
    · exact normalOutcome_legal _ _ _ (by simp [modpTrace])
    · exact raiseError_legal _
  | ispow2 => exact normalOutcome_legal _ _ _ (by simp [ispowTrace])
  | pow => exact normalOutcome_legal _ _ _ entriesLegal_nil

/-- `Exec(w, A, B)` is legal for every word, legal or not, and all operands (R104). -/
theorem commandOutcome_legal (w a b : Word) : OutcomeLegal (commandOutcome w a b) := by
  unfold commandOutcome
  split
  · exact outcomeOf_legal _ a b
  · exact raiseError_legal _

end Sys2Proof.Machine
end

section
/-! The invariant of the block, one lemma per event of a cycle. -/

namespace Sys2Proof.Machine

/-- The reset edge brings the invariant from every state (R280). -/
theorem resetEdge_invariant (s : State) : BlockInvariant (resetEdge s) where
  legal := by simp [StatusLegal, State.reset, Status.zero]
  phase := by simp [PhaseMatches, State.reset, Status.zero]
  running := by simp [RunningConsistent, State.reset, Status.zero]
  fresh := fun _ _ => ⟨rfl, rfl, rfl, rfl, rfl⟩
  belongs := by simp [OutcomeBelongs, State.reset, Status.zero]
  control := by simp [TraceControlLegal, State.reset, TraceHdr.zero]

variable {s : State}

/-- The invariant does not speak of the model's record of the cycle. -/
theorem recordCycle_keeps_invariant (h : BlockInvariant s) (p : PortIn) : BlockInvariant (recordCycle s p) :=
  ⟨h.legal, h.phase, h.running, h.fresh, h.belongs, h.control⟩

/-- DROP may be cleared in every block and set in a busy one: a block fresh from reset keeps STATUS = 0. -/
theorem setDrop_keeps_invariant (h : BlockInvariant s) (d : Bool)
    (hd : d = true → s.status.busy = true ∨ s.status.drop = true) :
    BlockInvariant { s with status := { s.status with drop := d } } where
  legal := h.legal
  phase := h.phase
  running := h.running
  fresh := by
    intro hbusy hdone
    obtain ⟨hzero, hregs⟩ := h.fresh hbusy hdone
    have hclear : d = false := by
      by_contra hset
      simpa [hzero, Status.zero] using hd (by simpa using hset)
    exact ⟨by simp [hzero, hclear, Status.zero], hregs⟩
  belongs := h.belongs
  control := h.control

/-- Accept (R101) starts the run phase with at least one edge to go (R290); the trace buffer keeps its entries. -/
theorem accept_keeps_invariant (h : BlockInvariant s) (w : Word) : BlockInvariant (accept s w) where
  legal := by simp [StatusLegal]
  phase := by simp [PhaseMatches, Config.latency]
  running := fun _ => ⟨rfl, rfl, rfl, rfl, rfl⟩
  fresh := by simp [FreshAfterReset]
  belongs := by simp [OutcomeBelongs]
  control := h.control

theorem requestCommand_keeps_invariant (h : BlockInvariant s) (w : Word) :
    BlockInvariant (requestCommand s w) := by
  obtain ⟨-, hreq⟩ | ⟨hbusy, hreq⟩ := requestCommand_cases s w <;> rw [hreq]
  · exact accept_keeps_invariant h w
  · exact setDrop_keeps_invariant h true fun _ => .inl hbusy

theorem writeTarget_keeps_invariant (h : BlockInvariant s) (t : Target) (v : Word) :
    BlockInvariant (writeTarget s t v) := by
  obtain ⟨-, hw⟩ | ⟨-, hw⟩ | ⟨-, hw⟩ | ⟨-, hw⟩ | hw := writeTarget_cases s t v <;> rw [hw]
  · exact ⟨h.legal, h.phase, h.running, h.fresh, h.belongs, h.control⟩
  · exact ⟨h.legal, h.phase, h.running, h.fresh, h.belongs, h.control⟩
  · exact requestCommand_keeps_invariant h v
  · rw [status_onWrite_eq]
    exact setDrop_keeps_invariant h _ fun hset => .inr (Bool.and_eq_true_iff.1 hset).1
  · exact h

/-- The HOST's part of a cycle keeps the invariant, whatever the access is. -/
theorem busCycle_keeps_invariant (h : BlockInvariant s) (p : PortIn) : BlockInvariant (busCycle s p) := by
  have hrec := recordCycle_keeps_invariant h p
  unfold busCycle
  obtain he | ⟨-, -, t, -, he⟩ := accessEffect_cases (recordCycle s p) p <;> rw [he]
  · exact hrec
  · exact writeTarget_keeps_invariant hrec t p.wdata

/-- An edge of the run phase keeps the invariant as long as it is not the last one. -/
theorem runOn_keeps_invariant (h : BlockInvariant s) (hleft : 1 < s.remaining) : BlockInvariant (runOn s) where
  legal := h.legal
  phase := by
    obtain ⟨hphase, hremaining⟩ := h.phase
    have hbusy : s.status.busy = true := hremaining.1 (by omega)
    exact ⟨hphase, by simp [hbusy]; omega⟩
  running := h.running
  fresh := h.fresh
  belongs := h.belongs
  control := h.control

/-- Every entry that LEN counts after a completion is an entry of the outcome. -/
theorem complete_traceControlLegal (s : State) {o : CmdOutcome} (h : EntriesLegal o.entries) :
    TraceControlLegal (complete s o) := by
  intro k hk
  have hlt : k.val < o.entries.length := hk.trans_le o.len_le
  rw [complete_trace, writeTrace_of_some s.trace o.entries k _ (List.getElem?_eq_getElem hlt)]
  exact h _ (List.getElem_mem hlt)

/-- The completion of a running command keeps the invariant: what accept latched is what the outcome belongs to. -/
theorem complete_keeps_invariant (h : BlockInvariant s) (hbusy : s.status.busy = true) :
    BlockInvariant (complete s (commandOutcome s.latW s.latA s.latB)) where
  legal :=
    have legal := commandOutcome_legal s.latW s.latA s.latB
    ⟨fun hb => by simp at hb, legal.err_iff, legal.not_both, legal.code_le⟩
  phase := by simp [PhaseMatches]
  running := by simp [RunningConsistent]
  fresh := by simp [FreshAfterReset]
  belongs := fun _ => by
    obtain ⟨-, hopLast, -⟩ := h.running hbusy
    exact ⟨hopLast, complete_holdsOutcome s _⟩
  control := complete_traceControlLegal s (commandOutcome_legal s.latW s.latA s.latB).entries

/-- A cycle out of reset keeps the invariant. The HOST's access comes first and leaves a running command as it is, so
that the edges left, which the ENGINE judges at the start of the cycle, are still those of the state it acts on (R69). -/
theorem workingCycle_keeps_invariant {t : State} (h : BlockInvariant s) (p : PortIn)
    (hstep : engineEdge s (busCycle s p) = .next t) : BlockInvariant t := by
  have hbus := busCycle_keeps_invariant h p
  obtain ⟨-, he⟩ | ⟨hrun, hleft, he⟩ | ⟨hrun, -, he⟩ := engineEdge_cases s (busCycle s p) <;>
    rw [he] at hstep <;> cases hstep
  · exact hbus
  · have same := busCycle_sameCommand s p (h.phase.1.1 hrun)
    exact runOn_keeps_invariant hbus (same.remaining ▸ hleft)
  · have hbusy : s.status.busy = true := h.phase.1.1 hrun
    have same := busCycle_sameCommand s p hbusy
    exact complete_keeps_invariant hbus (same.busy.trans hbusy)

/-- Settles O47: by the four kinds of step, a reset edge, a cycle out of reset, and before the first reset edge a
refusal, which gives no next state, or an idle cycle. -/
theorem everyStepKeepsTheInvariant : Obligations.EveryStepKeepsTheInvariant := by
  intro s t h hstep
  obtain ⟨-, he⟩ | ⟨-, -, he⟩ | ⟨-, -, -, he⟩ | ⟨-, -, -, he⟩ := step_cases s <;> rw [he] at hstep
  · cases hstep; exact resetEdge_invariant _
  · exact workingCycle_keeps_invariant h _ hstep
  · cases hstep
  · cases hstep; exact recordCycle_keeps_invariant h _

end Sys2Proof.Machine
end

section
/-! Writes of the offsets but CMD (R21, R22, R25, R67), in idle and in running blocks. -/

namespace Sys2Proof.Machine

/-- The HOST's part of a cycle that writes a mapped offset but CMD. -/
theorem busCycle_writeAccess {s : State} {a : Addr} {v : Word} {rest : List PortIn}
    (hinputs : s.inputs = writeAccess a v :: rest) (hmap : mapAddr a ≠ none) (hcmd : a ≠ 0x008) :
    busCycle s (writeAccess a v) = afterWrite s a v rest := by
  obtain ⟨t, ht⟩ := Option.ne_none_iff_exists'.1 hmap
  have hport : outputs s (writeAccess a v) =
      { rdata := 0, err := false, busy := s.status.busy, done := s.status.done } := by
    simp [outputs, readData, errorResponse, writeAccess, ht, busyWire, doneWire]
  have hbus : busCycle s (writeAccess a v) = writeTarget (recordCycle s (writeAccess a v)) t v := by
    simp [busCycle, accessEffect, writeAccess, ht]
  rw [hbus]
  unfold recordCycle
  rw [hport, hinputs]
  obtain ⟨rfl, rfl⟩ | ⟨rfl, rfl⟩ | ⟨-, rfl⟩ | ⟨rfl, rfl⟩ | hheld := mapAddr_cases ht
  · rfl
  · rfl
  · exact absurd rfl hcmd
  · simp [writeTarget, afterWrite, status_onWrite_eq]
  · have h0 : a ≠ 0x000 := by rintro rfl; cases ht; cases hheld
    have h4 : a ≠ 0x004 := by rintro rfl; cases ht; cases hheld
    have hC : a ≠ 0x00C := by rintro rfl; cases ht; cases hheld
    rw [writeTarget_of_holdsOutcome _ v hheld]
    simp only [afterWrite, if_neg h0, if_neg h4, if_neg hC, List.tail_cons]

/-- What a read of a mapped offset delivers (R61). -/
theorem outputs_readAccess (s : State) {a : Addr} {t : Target} (h : mapAddr a = some t) :
    (outputs s (readAccess a)).rdata = readTarget s t := by
  simp [outputs, readData, readAccess, h]

/-- OPA, OPB, CMD and STATUS read exactly, also while a command runs (R285). -/
theorem readTarget_of_not_holdsOutcome (s : State) {t : Target} (h : t.holdsOutcome = false) :
    readTarget s t = heldWord s t := by
  simp [readTarget, h]

/-- Settles O54, by the phase of the block at the start of the cycle. -/
theorem writesTakeEffectAtOnce : Obligations.WritesTakeEffectAtOnce := by
  intro s v a rest hpresents hmap hcmd
  have hstep : step s = engineEdge s (afterWrite s a v rest) := by
    rw [step_of_presents hpresents, busCycle_writeAccess hpresents.2.1 hmap hcmd]
  refine ⟨fun hidle => ?idle, fun hrun hleft => ?running, fun hrun hlast => ?completing, fun t ht ha => ?readBack⟩
  case idle => simp [hstep, engineEdge, hidle]
  case running =>
    refine ⟨runOn (afterWrite s a v rest), ?_, rfl⟩
    simp [hstep, engineEdge, hrun, Nat.not_le.2 hleft]
  case completing =>
    refine ⟨complete (afterWrite s a v rest) (commandOutcome s.latW s.latA s.latB), ?_,
      complete_completed _ _, complete_holdsOutcome _ _, complete_frame _ _⟩
    simp only [hstep, engineEdge, hrun, if_pos hlast, runCommand_eq_complete]
    rfl
  case readBack =>
    obtain ⟨hopa, hopb, -⟩ := engineEdge_keeps (hstep ▸ ht)
    obtain rfl | rfl := ha
    · have hread : mapAddr 0x000 = some .opa := by decide
      rw [outputs_readAccess t hread, readTarget_of_not_holdsOutcome t rfl]
      exact hopa
    · have hread : mapAddr 0x004 = some .opb := by decide
      rw [outputs_readAccess t hread, readTarget_of_not_holdsOutcome t rfl]
      exact hopb

end Sys2Proof.Machine
end

section
/-! The reset values, the sideband wires and the working registers. -/

namespace Sys2Proof.Machine

/-- Settles O45: the registers by their reset values; the trace window reads 0 because LEN is 0. -/
theorem resetValues : Obligations.ResetValues :=
  ⟨rfl, rfl, rfl, rfl, rfl, rfl, rfl, rfl, rfl, rfl,
    fun k j => readTarget_trace_of_len_le State.reset k j rfl (Nat.zero_le k.val)⟩

/-- Settles O56: every step records the outputs of its cycle, and two of them are the STATUS bits. -/
theorem sidebandWiresMirrorStatus : Obligations.SidebandWiresMirrorStatus := by
  intro s t hstep
  rw [step_port hstep]
  exact ⟨rfl, rfl⟩

/-- Settles O60: every meaning is one completion. -/
theorem completionKeepsWorkingRegisters : Obligations.CompletionKeepsWorkingRegisters :=
  ⟨fun i s => ⟨_, exec_eq_complete i s, complete_keepsWorkingRegisters s _⟩,
    fun s => ⟨_, rfl, complete_keepsWorkingRegisters s _⟩⟩

end Sys2Proof.Machine
end

section
/-! The register map in numbers (R63, R64): the addresses that map to nothing, and the answer to an access there. -/

namespace Sys2Proof.Machine

/-- The map's alignment check in numbers (R64). -/
theorem lowBits_eq_zero_iff (a : Addr) : a.extractLsb' 0 2 = 0 ↔ a.toNat % 4 = 0 := by
  simp [← BitVec.toNat_inj]

/-- The map's check for the trace window in numbers (R63). -/
theorem highBits_eq_one_iff (a : Addr) : a.extractLsb' 10 2 = 1 ↔ 0x400 ≤ a.toNat ∧ a.toNat < 0x800 := by
  have hlt := a.isLt
  have hone : (1 : BitVec 2).toNat = 1 := rfl
  simp only [← BitVec.toNat_inj, BitVec.extractLsb'_toNat, Nat.shiftRight_eq_div_pow, hone]
  omega

/-- The misaligned addresses, the gap between TRACE_HDR and the trace window, and all above the window map to nothing
(R64). -/
theorem mapAddr_eq_none_iff (a : Addr) : mapAddr a = none ↔
    a.toNat % 4 ≠ 0 ∨ (0x01C ≤ a.toNat ∧ a.toNat < 0x400) ∨ 0x800 ≤ a.toNat := by
  simp only [mapAddr, ne_eq, lowBits_eq_zero_iff, highBits_eq_one_iff]
  split
  case isTrue hmisaligned => simp [hmisaligned]
  case isFalse haligned =>
    split
    case isTrue htrace => simp only [reduceCtorEq, false_iff]; omega
    case isFalse hregister =>
      -- the last arm is an aligned address outside the trace window with no register at it
      split
      case h_8 => simp only [imp_false, true_iff] at *; omega
      all_goals simp only [reduceCtorEq, false_iff]; omega

/-- Settles O50: the map in numbers, and an access whose target is `none`. -/
theorem unmappedAccessHasNoEffect : Obligations.UnmappedAccessHasNoEffect := by
  refine ⟨mapAddr_eq_none_iff, fun s p hsel hrst => ⟨?err, fun hnone => ⟨?rdata, ?effect⟩⟩⟩
  case err => simp [outputs, errorResponse, hsel, hrst]
  case rdata => simp [outputs, readData, hnone]
  case effect => simp [busCycle, accessEffect, hnone]

end Sys2Proof.Machine
end

section
/-! What a read delivers (R63): the words of STATUS and TRACE_HDR as numbers, and the trace window. -/

namespace Sys2Proof.Machine

/-- Concatenation as a sum, the form that `omega` can use: the left part stands above the right part's places. -/
theorem toNat_append_eq_add {m n : Nat} (x : BitVec m) (y : BitVec n) :
    (x ++ y).toNat = x.toNat * 2 ^ n + y.toNat := by
  rw [BitVec.toNat_append, ← Nat.shiftLeft_add_eq_or_of_lt y.isLt, Nat.shiftLeft_eq]

theorem toNat_ofBool_eq_bitNat (b : Bool) : (BitVec.ofBool b).toNat = bitNat b := by
  cases b <;> rfl

/-- The bit places of STATUS (R25). -/
theorem Status.word_toNat (t : Status) : t.word.toNat =
    bitNat t.busy + 2 * bitNat t.done + 4 * bitNat t.err + 8 * bitNat t.unsup + 16 * bitNat t.drop
      + 256 * t.errcode.toNat := by
  simp only [Status.word, toNat_append_eq_add, toNat_ofBool_eq_bitNat, BitVec.toNat_ofNat]
  omega

/-- The bit places of TRACE_HDR (R32). -/
theorem TraceHdr.word_toNat (h : TraceHdr) :
    h.word.toNat = h.op.toNat + 256 * h.padw.toNat + 65536 * h.len.toNat := by
  simp only [TraceHdr.word, toNat_append_eq_add, BitVec.toNat_ofNat]
  omega

/-- The address of word `j` of entry `k` maps to that word (R63). -/
theorem mapAddr_traceOffset (k : Fin 64) (j : Fin 4) : mapAddr (traceOffset k.val j) = some (.trace k j) := by
  have hk := k.isLt
  have hj := j.isLt
  have haddr : (traceOffset k.val j).toNat = 0x400 + 16 * k.val + 4 * j.val := by
    simp only [traceOffset, BitVec.toNat_ofNat]
    omega
  have haligned : (traceOffset k.val j).extractLsb' 0 2 = 0 := (lowBits_eq_zero_iff _).2 (by omega)
  have hwindow : (traceOffset k.val j).extractLsb' 10 2 = 1 := (highBits_eq_one_iff _).2 (by omega)
  have hentry : ((traceOffset k.val j).extractLsb' 4 6).toFin = k := Fin.ext <| by
    simp only [BitVec.val_toFin, BitVec.extractLsb'_toNat, haddr, Nat.shiftRight_eq_div_pow]
    omega
  have hword : ((traceOffset k.val j).extractLsb' 2 2).toFin = j := Fin.ext <| by
    simp only [BitVec.val_toFin, BitVec.extractLsb'_toNat, haddr, Nat.shiftRight_eq_div_pow]
    omega
  simp only [mapAddr, haligned, hwindow, hentry, hword, ne_eq, not_true_eq_false, if_false, if_true]

/-- In a block that is not busy every mapped word reads as it is held (R61, R285). -/
theorem outputs_readAccess_of_not_busy (s : State) {a : Addr} {t : Target} (hbusy : s.status.busy = false)
    (h : mapAddr a = some t) : (outputs s (readAccess a)).rdata = heldWord s t := by
  simp [outputs_readAccess s h, readTarget, hbusy]

/-- Settles O51: each offset by its target, and the words of the targets in numbers. -/
theorem readsDeliverTheRegisterMap : Obligations.ReadsDeliverTheRegisterMap := by
  intro s hbusy
  have read {a : Addr} {t : Target} (h : mapAddr a = some t) :
      (outputs s (readAccess a)).rdata = heldWord s t := outputs_readAccess_of_not_busy s hbusy h
  refine ⟨read (t := .opa) rfl, read (t := .opb) rfl, ?cmd, ?status, read (t := .result) rfl,
    read (t := .result2) rfl, ?traceHdr, fun k j => read (mapAddr_traceOffset k j)⟩
  case cmd =>
    rw [read (t := .cmd) rfl]
    exact BitVec.toNat_setWidth_of_le (by decide)
  case status =>
    rw [read (t := .status) rfl]
    simp [heldWord, Status.word_toNat, hbusy, bitNat]
  case traceHdr =>
    rw [read (t := .traceHdr) rfl]
    exact s.traceHdr.word_toNat

end Sys2Proof.Machine
end

section
/-! A read has no side effect (R67): the ENGINE's edge does not depend on the record of the output ports. -/

namespace Sys2Proof.Machine

/-- The ENGINE's edge gives a next state and hands the record of the output ports through. -/
theorem engineEdge_setPort (s s' : State) (q : PortOut) :
    ∃ t, engineEdge s s' = .next t ∧ engineEdge s { s' with port := q } = .next { t with port := q } := by
  unfold engineEdge
  cases s.phase with
  | idle => exact ⟨s', rfl, rfl⟩
  | run =>
    dsimp only
    split
    · exact ⟨_, runCommand_eq_complete s', runCommand_eq_complete { s' with port := q }⟩
    · exact ⟨runOn s', rfl, rfl⟩

/-- A cycle out of reset that presents no write is the record of the cycle, then the ENGINE's edge. -/
theorem step_of_not_write {s : State} {p : PortIn} (rest : List PortIn) (hseen : s.resetSeen = true)
    (hrst : p.rst = false) (hread : (p.sel && p.we) = false) :
    step { s with inputs := p :: rest } = engineEdge s { recordCycle s p with inputs := rest } := by
  have hpresents : Presents { s with inputs := p :: rest } p rest := ⟨hseen, rfl, hrst⟩
  rw [step_of_presents hpresents, busCycle_of_not_write _ p hread]
  rfl

/-- Settles O53: the two cycles differ in the record of the output ports, which the ENGINE's edge hands through. -/
theorem readsHaveNoSideEffect : Obligations.ReadsHaveNoSideEffect := by
  intro s p rest _ hwe hrst hseen
  have hreading := step_of_not_write rest hseen hrst (by simp [hwe])
  have hidling := step_of_not_write (p := PortIn.idle) rest hseen rfl rfl
  obtain ⟨t, ht, ht'⟩ :=
    engineEdge_setPort s { recordCycle s p with inputs := rest } (outputs s PortIn.idle)
  exact ⟨t, _, hreading.trans ht, hidling.trans ht', rfl⟩

end Sys2Proof.Machine
end

section
/-! The byte-mapped view (R66): the four byte addresses of a word, and a word from its four bytes. -/

namespace Sys2Proof.Machine

/-- A word is made up of its four bytes. -/
theorem wordOfBytes_byteOf (w : Word) : wordOfBytes (byteOf w 0) (byteOf w 1) (byteOf w 2) (byteOf w 3) = w := by
  apply BitVec.eq_of_toNat_eq
  have hlt := w.isLt
  simp only [wordOfBytes, byteOf, toNat_append_eq_add, BitVec.extractLsb'_toNat, Nat.shiftRight_eq_div_pow]
  omega

/-- Clearing the two low bits of a byte address gives the address of its word. -/
theorem toNat_and_wordMask (a : Addr) : (a &&& 0xFFC).toNat = a.toNat / 4 * 4 := by
  have hshift : a &&& (0xFFC : Addr) = (a >>> 2) <<< 2 := by
    apply BitVec.eq_of_getLsbD_eq
    intro i hi
    interval_cases i <;> simp
  have hlt := a.isLt
  rw [hshift]
  simp only [BitVec.toNat_shiftLeft, BitVec.toNat_ushiftRight, Nat.shiftLeft_eq, Nat.shiftRight_eq_div_pow]
  omega

/-- Only aligned addresses are mapped (R64). -/
theorem mapAddr_aligned {a : Addr} {t : Target} (h : mapAddr a = some t) : a.toNat % 4 = 0 := by
  by_contra hmis
  simp [(mapAddr_eq_none_iff a).2 (.inl hmis)] at h

/-- The byte `i` places above a mapped address is byte `i` of the word that the target holds. -/
theorem windowByte_add (s : State) {a : Addr} {t : Target} (h : mapAddr a = some t) (i : Fin 4) :
    windowByte s (a + BitVec.ofNat 12 i.val) = some (byteOf (heldWord s t) i.val) := by
  have haligned := mapAddr_aligned h
  have hi := i.isLt
  have hlt := a.isLt
  have hsum : (a + BitVec.ofNat 12 i.val).toNat = a.toNat + i.val := by
    simp only [BitVec.toNat_add, BitVec.toNat_ofNat]
    omega
  have hword : (a + BitVec.ofNat 12 i.val) &&& 0xFFC = a :=
    BitVec.eq_of_toNat_eq (by rw [toNat_and_wordMask, hsum]; omega)
  have hbyte : ((a + BitVec.ofNat 12 i.val).extractLsb' 0 2).toNat = i.val := by
    rw [BitVec.extractLsb'_toNat, hsum, Nat.shiftRight_zero]
    omega
  simp only [windowByte, hword, hbyte, h, Option.map_some]

/-- Settles O55: by the byte at each of the four addresses. -/
theorem windowBytesAreLittleEndian : Obligations.WindowBytesAreLittleEndian := by
  intro s a t h
  refine ⟨_, _, _, _, ?_, windowByte_add s h 1, windowByte_add s h 2, windowByte_add s h 3,
    wordOfBytes_byteOf (heldWord s t)⟩
  simpa using windowByte_add s h 0

end Sys2Proof.Machine
end

section
/-! The decoder and the encoder (R80, R81, R83): the fields of a word as numbers, and which words decode to what. -/

namespace Sys2Proof.Machine

/-- Bits 31:4 as a number (R80). -/
theorem rsvdField_eq_zero_iff (w : Word) : rsvdField w = 0 ↔ u32 w / 16 = 0 := by
  have hlt := w.isLt
  have hzero : (0 : BitVec 28).toNat = 0 := rfl
  simp only [← BitVec.toNat_inj, rsvdField, u32, BitVec.extractLsb'_toNat, Nat.shiftRight_eq_div_pow, hzero]
  omega

/-- Bits 3:0 as a number (R80). -/
theorem opField_toNat (w : Word) : (opField w).toNat = u32 w % 16 := by
  simp [opField, u32]

/-- A word is legal exactly when its fields pass the two checks of R83. -/
theorem wordLegal_iff (w : Word) : wordLegal w = true ↔ rsvdField w = 0 ∧ (opField w).toNat ≤ 10 := by
  simp [wordLegal, reservedClear, opInRange]

/-- The operation list stands in the order of the codes (R81). -/
theorem operationList_code : ∀ n : Fin 11, (operationList[n]).code.toNat = n.val := by decide

/-- The decoder gives an operation exactly for a word with clear reserved bits and a place in the operation list. -/
theorem decode_eq_ok_iff (w : Word) (i : Instr) :
    decode w = .ok i ↔ rsvdField w = 0 ∧ operationList[(opField w).toNat]? = some i := by
  unfold decode
  split
  case isTrue hset => simp only [hset, false_and, reduceCtorEq]
  case isFalse hclear =>
    have hrsvd : rsvdField w = 0 := not_not.1 hclear
    cases operationList[(opField w).toNat]? <;> simp [hrsvd]

/-- The words that decode to some operation are the legal ones (R83). -/
theorem exists_decode_eq_ok_iff (w : Word) : (∃ i, decode w = .ok i) ↔ wordLegal w = true := by
  have hlength : operationList.length = 11 := rfl
  rw [wordLegal_iff]
  constructor
  · rintro ⟨i, hi⟩
    obtain ⟨hrsvd, hplace⟩ := (decode_eq_ok_iff w i).1 hi
    obtain ⟨hlt, -⟩ := List.getElem?_eq_some_iff.1 hplace
    exact ⟨hrsvd, by omega⟩
  · rintro ⟨hrsvd, hop⟩
    exact ⟨_, (decode_eq_ok_iff w _).2 ⟨hrsvd, List.getElem?_eq_getElem (by omega)⟩⟩

/-- The round trip of the model's support file, for every operation. -/
theorem roundTrip : ∀ i : Instr, Laws.RoundTrip.Statement i
  | .add => Laws.RoundTrip.add
  | .sub => Laws.RoundTrip.sub
  | .mul => Laws.RoundTrip.mul
  | .div => Laws.RoundTrip.div
  | .and => Laws.RoundTrip.and
  | .or => Laws.RoundTrip.or
  | .even => Laws.RoundTrip.even
  | .popcnt => Laws.RoundTrip.popcnt
  | .modp2 => Laws.RoundTrip.modp2
  | .ispow2 => Laws.RoundTrip.ispow2
  | .pow => Laws.RoundTrip.pow

/-- The decoder inverts the encoder (R81). -/
theorem decode_encode (i : Instr) : decode (encode i) = .ok i := (roundTrip i rfl).1

/-- A word that decodes to an operation is that operation's command word: the reserved bits are 0, and the place in the
operation list gives the code back. -/
theorem eq_encode_of_decode {w : Word} {i : Instr} (h : decode w = .ok i) : w = encode i := by
  obtain ⟨hrsvd, hplace⟩ := (decode_eq_ok_iff w i).1 h
  obtain ⟨hlt, hi⟩ := List.getElem?_eq_some_iff.1 hplace
  have hcode : i.code.toNat = (opField w).toNat := hi ▸ operationList_code ⟨(opField w).toNat, hlt⟩
  obtain ⟨-, -, hencode⟩ := roundTrip i rfl
  have hhigh : u32 w / 16 = 0 := (rsvdField_eq_zero_iff w).1 hrsvd
  apply BitVec.eq_of_toNat_eq
  rw [hencode, BitVec.toNat_setWidth_of_le (by decide), hcode, opField_toNat]
  unfold u32 at *
  omega

/-- An illegal word ends in IllegalOperation (R254). -/
theorem commandOutcome_of_illegal {w : Word} (h : wordLegal w = false) (a b : Word) :
    commandOutcome w a b = raiseError .illegalOperation := by
  unfold commandOutcome
  cases hdecode : decode w with
  | ok i => simp [(exists_decode_eq_ok_iff w).1 ⟨i, hdecode⟩] at h
  | error e => rfl

/-- Settles O35: by the fields as numbers, the decoder's two checks, and the round trip in both directions. -/
theorem decodeAcceptsExactlyTheTable : Obligations.DecodeAcceptsExactlyTheTable := by
  refine ⟨fun w => ?legal, exists_decode_eq_ok_iff, fun w i => ⟨eq_encode_of_decode, ?encoded⟩,
    fun w a b h => commandOutcome_of_illegal h a b⟩
  case legal => rw [wordLegal_iff, rsvdField_eq_zero_iff, opField_toNat]
  case encoded => rintro rfl; exact decode_encode i

/-- Settles O36: the eleven words are what the encoder writes; the two others fail one check each. -/
theorem listedWordsDecode : Obligations.ListedWordsDecode :=
  ⟨decode_encode .add, decode_encode .sub, decode_encode .mul, decode_encode .div, decode_encode .and,
    decode_encode .or, decode_encode .even, decode_encode .popcnt, decode_encode .modp2, decode_encode .ispow2,
    decode_encode .pow, rfl, rfl⟩

end Sys2Proof.Machine
end

section
/-! HOST programs (R84, R85): the HOST's variables, the accesses of its statements, and one cycle of the HOST and the
block together. -/

namespace Sys2Proof.Machine

/-- A variable that stands in the list holds its entry. -/
theorem hostVar_of_getElem? {vars : List Word} {x : Nat} {v : Word} (h : vars[x]? = some v) :
    hostVar vars x = v := by
  simp [hostVar, h]

/-- A variable holds the value it was set to. -/
@[simp] theorem hostVar_setHostVar_same (vars : List Word) (x : Nat) (v : Word) :
    hostVar (setHostVar vars x v) x = v := by
  have hlt : x < (vars ++ List.replicate (x + 1 - vars.length) 0).length := by
    simp only [List.length_append, List.length_replicate]
    omega
  exact hostVar_of_getElem? (List.getElem?_set_self hlt)

/-- Setting a variable leaves the others: the list grows by zeros only, which is what an unset variable holds. -/
theorem hostVar_setHostVar_of_ne (vars : List Word) {x y : Nat} (v : Word) (h : y ≠ x) :
    hostVar (setHostVar vars x v) y = hostVar vars y := by
  simp only [hostVar, setHostVar, List.getD_eq_getElem?_getD, List.getElem?_set_ne h.symm]
  by_cases hlt : y < vars.length
  · rw [List.getElem?_append_left hlt]
  · rw [List.getElem?_append_right (by omega), List.getElem?_eq_none (l := vars) (by omega),
      List.getElem?_replicate]
    split <;> rfl

/-- The registers at their offsets, as R63 lists them. -/
theorem offset_eq_of_mem {r : BusReg} {off : Addr}
    (h : (r, off) ∈ [(BusReg.opa, (0x000 : Addr)), (.opb, 0x004), (.cmd, 0x008), (.status, 0x00C), (.result, 0x010),
      (.result2, 0x014), (.traceHdr, 0x018)]) : r.offset = off := by
  cases r <;> simp at h <;> exact h.symm

/-- A read of a trace word at a literal index presents the offset of that word (R84). -/
theorem access_rdTrace_lit (vars : List Word) (k : Fin 64) (j : Fin 4) (x : Nat) :
    (HostStmt.rdTrace (.lit (BitVec.ofNat 32 k.val)) j x).access vars = readAccess (traceOffset k.val j) := by
  have hk := k.isLt
  have hindex : (BitVec.ofNat 32 k.val).toNat = k.val := by
    rw [BitVec.toNat_ofNat]
    omega
  simp only [HostStmt.access, HostValue.eval, hindex]

/-- Settles O58: form by form; the data of a read by what setting a variable does. -/
theorem hostNotationPresentsItsTransactions : Obligations.HostNotationPresentsItsTransactions := by
  refine ⟨fun r off hmem => ?registers, fun _ _ => rfl, fun vars x k j => ?traceRead, fun _ _ _ => ⟨rfl, rfl⟩,
    fun vars d r k j x => ?readData, fun _ _ => rfl, fun _ _ _ _ _ => rfl, fun _ _ _ _ => rfl, rfl⟩
  case registers =>
    obtain rfl := offset_eq_of_mem hmem
    refine ⟨fun _ _ => rfl, fun vars y v hy => ?_, fun _ _ => rfl⟩
    simp only [HostStmt.access, HostValue.eval, hostVar_of_getElem? hy]
  case traceRead =>
    rw [access_rdTrace_lit]
    exact ⟨rfl, mapAddr_traceOffset k j⟩
  case readData =>
    exact ⟨hostVar_setHostVar_same vars x d, hostVar_setHostVar_same vars x d, fun y hy =>
      ⟨hostVar_setHostVar_of_ne vars d hy, hostVar_setHostVar_of_ne vars d hy⟩⟩

/-- The ENGINE's edge always gives a next state, and a block out of reset stays so (R293). -/
theorem engineEdge_next (s s' : State) : ∃ t, engineEdge s s' = .next t ∧ t.resetSeen = s'.resetSeen := by
  obtain ⟨-, he⟩ | ⟨-, -, he⟩ | ⟨-, -, he⟩ := engineEdge_cases s s' <;> exact ⟨_, he, rfl⟩

/-- A cycle in which the HOST presents no write to a block out of reset: the block goes on, and the HOST advances with
what the block's state at the start of the cycle drives on `rdata` (R61). -/
theorem cycle_of_not_write (y : Bench) (hseen : y.block.resetSeen = true) (hrst : y.host.present.rst = false)
    (hread : (y.host.present.sel && y.host.present.we) = false) :
    ∃ s, y.cycle = .next { host := y.host.advance (outputs y.block y.host.present).rdata, block := s } ∧
      s.resetSeen = true := by
  have hedge := step_of_not_write [] hseen hrst hread
  obtain ⟨t, ht, htseen⟩ := engineEdge_next y.block { recordCycle y.block y.host.present with inputs := [] }
  have hstep := hedge.trans ht
  have hport : t.port = outputs y.block y.host.present := step_port hstep
  refine ⟨t, ?_, htseen.trans hseen⟩
  simp only [Bench.cycle, hstep, hport]

/-- A HOST at a statement presents the access of that statement. -/
theorem present_of_getElem? {h : HostAgent} {st : HostStmt} (hst : h.prog[h.pc]? = some st) :
    h.present = st.access h.vars := by
  simp [HostAgent.present, hst]

/-- A HOST at a statement goes on as that statement says. -/
theorem advance_of_getElem? {h : HostAgent} {st : HostStmt} (hst : h.prog[h.pc]? = some st) (rdata : Word) :
    h.advance rdata =
      { h with pc := st.pcAfter h.prog h.pc h.vars, vars := st.varsAfter h.vars rdata } := by
  simp [HostAgent.advance, hst]

/-- DONE is bit 1 of STATUS (R25). -/
theorem Status.word_bit_one (t : Status) : t.word.getLsbD 1 = t.done := by
  simp only [Status.word, BitVec.getLsbD_append]
  simp

/-- The condition of a WAIT's branch tests bit 1 (R85). -/
theorem eval_bitIsZero_one (vars : List Word) (x : Nat) :
    (HostCond.bitIsZero x 1).eval vars = !(hostVar vars x).getLsbD 1 := rfl

/-- The label of a WAIT stands at its first place. -/
theorem labelPlace_wait (x l : Nat) : labelPlace (Pseudo.wait x l).expand l = 0 := by
  simp [labelPlace, Pseudo.expand, waitStmts, List.findIdx_cons]

/-- The read cycle of a WAIT: its variable takes STATUS as the cycle begins, and the branch is next. -/
theorem wait_readCycle {y : Bench} {x l : Nat} (hprog : y.host.prog = (Pseudo.wait x l).expand)
    (hpc : y.host.pc = 1) (hseen : y.block.resetSeen = true) :
    ∃ s, y.cycle = .next { host := { prog := (Pseudo.wait x l).expand, pc := 2,
                                     vars := setHostVar y.host.vars x y.block.status.word }, block := s } ∧
      s.resetSeen = true := by
  have hread : y.host.prog[y.host.pc]? = some (.rd .status x) := by rw [hprog, hpc]; rfl
  have hpresent : y.host.present = readAccess 0x00C := present_of_getElem? hread
  have hrdata : (outputs y.block y.host.present).rdata = y.block.status.word := by
    rw [hpresent, outputs_readAccess y.block (t := .status) rfl, readTarget_of_not_holdsOutcome y.block rfl]
    rfl
  obtain ⟨s, hcycle, hs⟩ := cycle_of_not_write y hseen (by rw [hpresent]; rfl) (by rw [hpresent]; rfl)
  refine ⟨s, ?_, hs⟩
  rw [hcycle, hrdata, advance_of_getElem? hread, hprog, hpc]
  rfl

/-- The branch cycle of a WAIT: past the loop when bit 1 of its variable is set, else back at the label. -/
theorem wait_branchCycle {y : Bench} {x l : Nat} (hprog : y.host.prog = (Pseudo.wait x l).expand)
    (hpc : y.host.pc = 2) (hseen : y.block.resetSeen = true) :
    ∃ y', y.cycle = .next y' ∧ y'.host.pc = if (hostVar y.host.vars x).getLsbD 1 then 3 else 0 := by
  have hbranch : y.host.prog[y.host.pc]? = some (.ifGoto (.bitIsZero x 1) l) := by rw [hprog, hpc]; rfl
  have hpresent : y.host.present = PortIn.idle := present_of_getElem? hbranch
  obtain ⟨s, hcycle, -⟩ := cycle_of_not_write y hseen (by rw [hpresent]; rfl) (by rw [hpresent]; rfl)
  refine ⟨_, hcycle, ?_⟩
  simp only [advance_of_getElem? hbranch, HostStmt.pcAfter, eval_bitIsZero_one, hprog, hpc, labelPlace_wait]
  cases (hostVar y.host.vars x).getLsbD 1 <;> rfl

/-- Settles O59: the read cycle puts STATUS in the variable, and the branch cycle tests its bit 1, which is DONE. -/
theorem waitEndsExactlyOnDone : Obligations.WaitEndsExactlyOnDone := by
  intro y x l hprog hpc hseen
  obtain ⟨s, hread, hs⟩ := wait_readCycle hprog hpc hseen
  obtain ⟨y2, hbranch, hpc2⟩ := wait_branchCycle (y := ⟨⟨_, 2, _⟩, s⟩) rfl rfl hs
  refine ⟨_, y2, hread, hbranch, ?_⟩
  rw [hpc2, hostVar_setHostVar_same, Status.word_bit_one]

end Sys2Proof.Machine
end

section
/-! The carry and borrow loops (R112, R113): one pass keeps the sum or the difference, and after as many passes as a
word has bits no carry is left. -/

namespace Sys2Proof.Machine

/-- A word is the disjoint sum of its bits outside a mask and its bits inside it. -/
theorem and_not_add_and (x y : Word) : (x &&& ~~~y) + (x &&& y) = x := by
  have hdisjoint : (x &&& ~~~y) &&& (x &&& y) = 0 := by
    ext i
    cases hy : y[i] <;> simp [hy]
  rw [BitVec.add_eq_or_of_and_eq_zero _ _ hdisjoint]
  ext i
  cases hy : y[i] <;> simp [hy]

/-- The same with the mask on the left: the bits of `y` outside `x` and those inside it. -/
theorem not_and_add_and (x y : Word) : (~~~x &&& y) + (x &&& y) = y := by
  simpa only [BitVec.and_comm] using and_not_add_and y x

/-- Exclusive or is the disjoint sum of the bits that only one of two words has. -/
theorem and_not_add_not_and (x y : Word) : (x &&& ~~~y) + (~~~x &&& y) = x ^^^ y := by
  have hdisjoint : (x &&& ~~~y) &&& (~~~x &&& y) = 0 := by
    ext i
    cases hy : y[i] <;> simp [hy]
  rw [BitVec.add_eq_or_of_and_eq_zero _ _ hdisjoint]
  ext i
  cases hy : y[i] <;> simp [hy]

/-- A shift by one place doubles. -/
theorem shl32_one (x : Word) : shl32 x 1 = x + x := by
  have hshift : shl32 x 1 = x <<< 1 := rfl
  apply BitVec.eq_of_toNat_eq
  rw [hshift, BitVec.toNat_shiftLeft, BitVec.toNat_add, Nat.shiftLeft_eq]
  omega

/-- One pass of the carry loop keeps the sum (R112). -/
theorem xor_add_shl32_and (x y : Word) : (x ^^^ y) + shl32 (x &&& y) 1 = x + y := by
  rw [← and_not_add_not_and, shl32_one]
  linear_combination and_not_add_and x y + not_and_add_and x y

/-- One pass of the borrow loop keeps the difference (R113). -/
theorem xor_sub_shl32_not_and (x y : Word) : (x ^^^ y) - shl32 (~~~x &&& y) 1 = x - y := by
  rw [← and_not_add_not_and, shl32_one]
  linear_combination and_not_add_and x y - not_and_add_and x y

/-- One pass moves every carry and every borrow one place up: what `n + 1` places shift out of the old one, `n` places
shift out of the new one. -/
theorem shl32_and_shiftLeft {y : Word} {n : Nat} (h : y <<< (n + 1) = 0) (x : Word) :
    shl32 (x &&& y) 1 <<< n = 0 := by
  have hshift : shl32 (x &&& y) 1 <<< n = (x &&& y) <<< (n + 1) := by
    rw [Nat.add_comm n, BitVec.shiftLeft_add]; rfl
  rw [hshift, BitVec.shiftLeft_and_distrib, h]
  simp

/-- The carry loop ends with the sum after `n` passes, when every carry is shifted out by `n` places. -/
theorem addPasses_eq_add (n : Nat) (x y : Word) (h : y <<< n = 0) : addPasses n x y = x + y := by
  induction n generalizing x y with
  | zero =>
    have hy : y = 0 := by simpa using h
    simp [addPasses, hy]
  | succ n ih =>
    rw [addPasses]
    split
    case isTrue hy => simp [hy]
    case isFalse => rw [ih _ _ (shl32_and_shiftLeft h x), xor_add_shl32_and]

/-- The borrow loop ends with the difference after `n` passes, when every borrow is shifted out by `n` places. -/
theorem subPasses_eq_sub (n : Nat) (x y : Word) (h : y <<< n = 0) : subPasses n x y = x - y := by
  induction n generalizing x y with
  | zero =>
    have hy : y = 0 := by simpa using h
    simp [subPasses, hy]
  | succ n ih =>
    rw [subPasses]
    split
    case isTrue hy => simp [hy]
    case isFalse => rw [ih _ _ (shl32_and_shiftLeft h (~~~x)), xor_sub_shl32_not_and]

/-- `ADD32` is addition modulo `2^32` (R112). -/
theorem add32_eq_add (x y : Word) : add32 x y = x + y :=
  addPasses_eq_add 32 x y (BitVec.shiftLeft_eq_zero le_rfl)

/-- `SUB32` is subtraction modulo `2^32` (R113). -/
theorem sub32_eq_sub (x y : Word) : sub32 x y = x - y :=
  subPasses_eq_sub 32 x y (BitVec.shiftLeft_eq_zero le_rfl)

/-- `wrap32` goes over to sums modulo `2^32` (R6). -/
theorem wrap32_add (i j : Int) : wrap32 (i + j) = wrap32 i + wrap32 j := BitVec.ofInt_add i j

/-- `wrap32` goes over to negation modulo `2^32` (R6). -/
theorem wrap32_neg (i : Int) : wrap32 (-i) = -wrap32 i := BitVec.ofInt_neg

/-- `wrap32` undoes the two readings of a pattern (R6). -/
@[simp] theorem wrap32_s32 (v : Word) : wrap32 (s32 v) = v := BitVec.ofInt_toInt

@[simp] theorem wrap32_u32 (v : Word) : wrap32 (u32 v) = v := by
  simp [wrap32, u32]

/-- Settles O30: from 32 passes on every carry and borrow is shifted out, whatever the operands are. -/
theorem carryAndBorrowLoopsEnd : Obligations.CarryAndBorrowLoopsEnd := by
  intro x y
  refine ⟨fun n hn => ⟨?carry, ?borrow⟩, ?unsigned, ?signed, ?difference⟩
  case carry => rw [addPasses_eq_add n x y (BitVec.shiftLeft_eq_zero hn), add32_eq_add]
  case borrow => rw [subPasses_eq_sub n x y (BitVec.shiftLeft_eq_zero hn), sub32_eq_sub]
  case unsigned => simp [add32_eq_add, wrap32_add]
  case signed => simp [add32_eq_add, wrap32_add]
  case difference => simp [sub32_eq_sub, wrap32_add, wrap32_neg, sub_eq_add_neg]

end Sys2Proof.Machine
end

section
/-! The other units of the datapath (R110, R111, R114 to R116), and the lengths of the traces (R104). -/

namespace Sys2Proof.Machine

/-- `SHL32` bit by bit (R110). -/
theorem bitAt_shl32 (x : Word) (s : BitVec 5) {i : Nat} (hi : i < 32) :
    bitAt (shl32 x s) i = if s.toNat ≤ i then bitAt x (i - s.toNat) else false := by
  simp only [bitAt, shl32, BitVec.getLsbD_shiftLeft, hi, decide_true, Bool.true_and]
  by_cases hs : s.toNat ≤ i
  · simp [hs, Nat.not_lt.2 hs]
  · simp [hs, Nat.lt_of_not_le hs]

/-- `SHL32` multiplies by a power of two (R110). -/
theorem shl32_eq_wrap32 (x : Word) (s : BitVec 5) : shl32 x s = wrap32 ((u32 x * 2 ^ s.toNat : Nat) : Int) := by
  apply BitVec.eq_of_toNat_eq
  rw [shl32, wrap32, BitVec.ofInt_natCast, BitVec.toNat_shiftLeft, Nat.shiftLeft_eq, BitVec.toNat_ofNat, u32]

/-- `SAR32` bit by bit (R111). -/
theorem bitAt_sar32 (x : Word) (s : BitVec 5) {i : Nat} (hi : i < 32) :
    bitAt (sar32 x s) i = if i + s.toNat ≤ 31 then bitAt x (i + s.toNat) else bitAt x 31 := by
  simp only [bitAt, sar32, BitVec.getLsbD_sshiftRight, Nat.not_le.2 hi, decide_false, Bool.not_false, Bool.true_and,
    Nat.add_comm i, Nat.lt_succ_iff, BitVec.msb_eq_getLsbD_last]

/-- Settles O31: by the bits of the two shifts. -/
theorem barrelShifterBits : Obligations.BarrelShifterBits :=
  fun x s _ hi => ⟨bitAt_shl32 x s hi, shl32_eq_wrap32 x s, bitAt_sar32 x s hi⟩

/-- The full-adder cell (R115). -/
theorem fullAdder_identity : ∀ x y c : Bool,
    bitNat x + bitNat y + bitNat c = bitNat (cellOut x y c) + 2 * bitNat (carryOut x y c) := by decide

/-- The full-subtractor cell (R115). -/
theorem fullSubtractor_identity : ∀ x y c : Bool,
    (bitNat x : Int) - bitNat y - bitNat c = (bitNat (cellOut x y c) : Int) - 2 * bitNat (borrowOut x y c) := by
  decide

/-- Settles O33: by the eight rows of each cell's table. -/
theorem cellsSatisfyTheirIdentities : Obligations.CellsSatisfyTheirIdentities :=
  fun x y c => ⟨fullAdder_identity x y c, fullSubtractor_identity x y c⟩

/-- A pattern reads as positive when it is not 0 and its sign bit is clear (R6). -/
theorem s32_pos_iff (v : Word) : 0 < s32 v ↔ 0 < u32 v ∧ u32 v < 2 ^ 31 := by
  have hlt := v.isLt
  rw [s32, u32, BitVec.toInt_eq_toNat_cond]
  split <;> omega

theorem bitLength_of_neg {v : Word} (h : s32 v < 0) : bitLength v = 32 := if_pos h

/-- `bitlength` of a positive pattern is one more than its binary logarithm (R114). -/
theorem bitLength_of_pos {v : Word} (h : 0 < s32 v) : bitLength v = 1 + Nat.log2 (u32 v) := by
  have hzero : v ≠ 0 := by rintro rfl; exact absurd h (by decide)
  rw [bitLength, if_neg (not_lt.2 h.le), if_neg hzero]

/-- Settles O32: a positive pattern is below `2^31`, and its highest set bit is at its binary logarithm. -/
theorem bitLengthIsHighestSetBit : Obligations.BitLengthIsHighestSetBit := by
  intro v
  refine ⟨bitLength_of_neg, by rintro rfl; rfl, fun hpos => ?_⟩
  obtain ⟨hne, hlt⟩ := (s32_pos_iff v).1 hpos
  rw [bitLength_of_pos hpos]
  refine ⟨by omega, ?bound, ?top, fun i hi => ?above⟩
  case bound =>
    have hlog : Nat.log2 (u32 v) < 31 := (Nat.log2_lt hne.ne').2 hlt
    omega
  case top =>
    rw [Nat.add_sub_cancel_left]
    exact Nat.testBit_log2 hne.ne'
  case above =>
    exact Nat.testBit_lt_two_pow ((Nat.log2_lt hne.ne').1 (by omega))

/-- A positive pattern has one set bit exactly when taking 1 away leaves no bit of it (R116). -/
theorem and_sub_one_eq_zero_iff {v : Word} (h : 0 < u32 v) : v &&& sub32 v 1 = 0 ↔ (u32 v).isPowerOfTwo := by
  have hsub : (sub32 v 1).toNat = u32 v - 1 := by
    have hlt := v.isLt
    rw [sub32_eq_sub]
    unfold u32 at *
    bv_omega
  rw [← Nat.and_sub_one_eq_zero_iff_isPowerOfTwo h.ne', ← BitVec.toNat_inj, BitVec.toNat_and, hsub]
  rfl

/-- `wrap32` of a number below `2^32`, read back unsigned. -/
theorem u32_wrap32_of_lt {n : Nat} (h : n < 2 ^ 32) : u32 (wrap32 n) = n := by
  rw [u32, wrap32, BitVec.ofInt_natCast, BitVec.toNat_ofNat, Nat.mod_eq_of_lt h]

/-- Settles O34: the detector tests for a positive power of two, and a positive pattern is below `2^31`. -/
theorem powerOfTwoDetector : Obligations.PowerOfTwoDetector := by
  intro v
  rw [isp2, Bool.and_eq_true, decide_eq_true_eq, decide_eq_true_eq, s32_pos_iff]
  constructor
  · rintro ⟨⟨hpos, hlt⟩, hand⟩
    obtain ⟨k, hk⟩ := (and_sub_one_eq_zero_iff hpos).1 hand
    have hexp : k < 31 := (Nat.pow_lt_pow_iff_right (by decide)).1 (hk ▸ hlt)
    exact ⟨k, by omega, by rw [← hk, wrap32_u32]⟩
  · rintro ⟨k, hk, hv⟩
    have hlt : 2 ^ k < 2 ^ 31 := Nat.pow_lt_pow_right (by decide) (by omega)
    have hu : u32 v = 2 ^ k := hv ▸ u32_wrap32_of_lt (by omega)
    have hpos : 0 < u32 v := hu ▸ Nat.two_pow_pos k
    exact ⟨⟨hpos, hu ▸ hlt⟩, (and_sub_one_eq_zero_iff hpos).2 ⟨k, hu⟩⟩

end Sys2Proof.Machine
end

section
/-! The widths and the lengths of the traces (R5, R104). -/

namespace Sys2Proof.Machine

theorem bitLength_le (v : Word) : bitLength v ≤ 32 := (bitLength_range v).2

/-- `W` of the add and subtract traces is at most 33 (R141, R144). -/
theorem sumWidth_le (a b : Word) : sumWidth a b ≤ 33 :=
  Nat.succ_le_succ (max_le (bitLength_le a) (bitLength_le b))

/-- `W` of the AND and OR traces is at most 32 (R192). -/
theorem pairWidth_le (a b : Word) : pairWidth a b ≤ 32 := max_le (bitLength_le a) (bitLength_le b)

/-- `N` of the multiply trace is at most 32 (R161). -/
theorem mulLength_le (b : Word) : mulLength b ≤ 32 := max_le (by decide) (bitLength_le b)

/-- The bounds on PADW and LEN (R5, R104): LEN can count the entries, and both are at most 33 but for the open PADW and
LEN of the unsupported outcome (R166). -/
def LengthsBounded (o : CmdOutcome) : Prop :=
  o.entries.length ≤ 63 ∧ (o.unsup = false → o.padw.toNat ≤ 33 ∧ o.entries.length ≤ 33)

theorem normalOutcome_lengthsBounded (r r2 : Word) {padw : Nat} {es : List TraceEntry} (hpadw : padw ≤ 33)
    (hlen : es.length ≤ 33) : LengthsBounded (normalOutcome r r2 padw es) := by
  have hfield : (BitVec.ofNat 6 padw).toNat ≤ 33 := (Nat.mod_le padw _).trans hpadw
  exact ⟨hlen.trans (by decide), fun _ => ⟨hfield, hlen⟩⟩

theorem raiseError_lengthsBounded (e : CmdError) : LengthsBounded (raiseError e) := by
  simp [LengthsBounded, raiseError]

/-- The unsupported outcome has as many entries as a 6-bit LEN says. -/
theorem unsupOutcome_lengthsBounded (op : OpCode) (a b : Word) : LengthsBounded (unsupOutcome op a b) := by
  have hlt := (Config.unspecLen op a b).isLt
  refine ⟨?_, by simp [unsupOutcome]⟩
  simp only [unsupOutcome, List.length_map, List.length_range]
  omega

theorem outcomeOf_lengthsBounded (i : Instr) (a b : Word) : LengthsBounded (outcomeOf i a b) := by
  have hsum := sumWidth_le a b
  have hpair : pairWidth a b ≤ 33 := (pairWidth_le a b).trans (by decide)
  have hbits : bitLength a ≤ 33 := (bitLength_le a).trans (by decide)
  cases i with
  | add => exact normalOutcome_lengthsBounded _ _ hsum (by simpa [addTrace, addColumns_length] using hsum)
  | sub => exact normalOutcome_lengthsBounded _ _ hsum (by simpa [subTrace, subColumns_length] using hsum)
  | mul =>
    simp only [outcomeOf, mulOutcome]
    split
    · exact unsupOutcome_lengthsBounded _ a b
    · have hlen : (mulTrace a b).length ≤ 32 := by simpa [mulTrace, mulSteps_length] using mulLength_le b
      exact normalOutcome_lengthsBounded _ _ (by decide) (by omega)
  | div =>
    simp only [outcomeOf, divOutcome]
    split
    · exact raiseError_lengthsBounded _
    · split
      · exact unsupOutcome_lengthsBounded _ a b
      · exact normalOutcome_lengthsBounded _ _ hbits (by simpa [divTrace, divSteps_length] using hbits)
  | and => exact normalOutcome_lengthsBounded _ _ hpair (by simpa [andSteps_length] using hpair)
  | or => exact normalOutcome_lengthsBounded _ _ hpair (by simpa [orSteps_length] using hpair)
  | even => exact normalOutcome_lengthsBounded _ _ hbits (by simp [evenTrace])
  | popcnt => exact normalOutcome_lengthsBounded _ _ hbits (popSteps_length a 32 a 0).2
  | modp2 =>
    simp only [outcomeOf, modp2Outcome]
    split
    · exact normalOutcome_lengthsBounded _ _ hpair (by simp [modpTrace])
    · exact raiseError_lengthsBounded _
  | ispow2 => exact normalOutcome_lengthsBounded _ _ hbits (by simp [ispowTrace])
  | pow => exact normalOutcome_lengthsBounded _ _ (by decide) (by decide)

/-- Settles O29: operation by operation; an illegal word writes no trace. -/
theorem traceLengthBounds : Obligations.TraceLengthBounds := by
  rintro w a b _ rfl
  change LengthsBounded (commandOutcome w a b)
  unfold commandOutcome
  split
  · exact outcomeOf_lengthsBounded _ a b
  · exact raiseError_lengthsBounded _

end Sys2Proof.Machine
end

section
/-! The life of a command (R101 to R104): accept, drop, and the run to the completion edge, whatever the HOST does. -/

namespace Sys2Proof.Machine

/-- A cycle out of reset with `rst` = 0 is the HOST's access, then the ENGINE's edge (R60, R69). -/
theorem step_of_out_of_reset {s : State} (hseen : s.resetSeen = true) (hrst : (currentInput s).rst = false) :
    step s = engineEdge s (busCycle s (currentInput s)) := by
  simp [step, clockCycle, workingCycle, hseen, hrst]

/-- The ENGINE's edge of a running block with more than one edge to go. -/
theorem engineEdge_of_running {s : State} (s' : State) (hrun : s.phase = .run) (hleft : 1 < s.remaining) :
    engineEdge s s' = .next (runOn s') := by
  simp [engineEdge, hrun, Nat.not_le.2 hleft]

/-- The completion edge of a running block (R103). -/
theorem engineEdge_of_last {s : State} (s' : State) (hrun : s.phase = .run) (hlast : s.remaining ≤ 1) :
    engineEdge s s' = runCommand s' := by
  simp [engineEdge, hrun, hlast]

/-- A word that decodes runs its operation (R104). -/
theorem runCommand_of_decode {s : State} {i : Instr} (h : decode s.latW = .ok i) : runCommand s = exec i s := by
  simp [runCommand, h]

/-- The completion edge of a latched word that decodes is `exec` of its operation, on the state that the HOST's access
of the cycle left: the access does not change the latched word. -/
theorem step_of_completion_edge {s : State} {i : Instr} (hseen : s.resetSeen = true)
    (hrst : (currentInput s).rst = false) (hrun : s.phase = .run) (hbusy : s.status.busy = true)
    (hlast : s.remaining ≤ 1) (hdecode : decode s.latW = .ok i) :
    step s = exec i (busCycle s (currentInput s)) := by
  have same := busCycle_sameCommand s (currentInput s) hbusy
  rw [step_of_out_of_reset hseen hrst, engineEdge_of_last _ hrun hlast,
    runCommand_of_decode (same.latW.symm ▸ hdecode)]

/-- Settles O37: by the completion edge; `withFetchWord` puts an idle cycle ahead of it. -/
theorem stepRunsTheDecodedCommand : Obligations.StepRunsTheDecodedCommand := by
  refine ⟨fun s i hseen hrst hrun hbusy hlast hdecode => ?running, fun s nbits w i hdecode => ?fetched⟩
  case running =>
    have same := busCycle_sameCommand s (currentInput s) hbusy
    exact ⟨step_of_completion_edge hseen hrst hrun hbusy hlast hdecode, same.latW, same.latA, same.latB⟩
  case fetched =>
    have hedge : step (s.withFetchWord nbits w) = exec i (busCycle (s.withFetchWord nbits w) PortIn.idle) :=
      step_of_completion_edge (s := s.withFetchWord nbits w) rfl rfl rfl rfl le_rfl hdecode
    rw [hedge, busCycle_of_not_write _ PortIn.idle rfl]

/-- The model's record of a cycle in which the HOST writes a mapped offset: the answer has no data and no `err`. -/
def recordWrite (s : State) (rest : List PortIn) : State :=
  { s with
    inputs := rest
    port := { rdata := 0, err := false, busy := s.status.busy, done := s.status.done }
    draws := s.draws + 1 }

/-- The HOST's part of a cycle that writes a mapped offset (R61, R67). -/
theorem busCycle_write_mapped {s : State} {a : Addr} {t : Target} {v : Word} {rest : List PortIn}
    (hinputs : s.inputs = writeAccess a v :: rest) (hmap : mapAddr a = some t) :
    busCycle s (writeAccess a v) = writeTarget (recordWrite s rest) t v := by
  have hport : outputs s (writeAccess a v) =
      { rdata := 0, err := false, busy := s.status.busy, done := s.status.done } := by
    simp [outputs, readData, errorResponse, writeAccess, hmap, busyWire, doneWire]
  have hrecord : recordCycle s (writeAccess a v) = recordWrite s rest := by
    rw [recordCycle, hport, hinputs]; rfl
  rw [busCycle, hrecord]
  simp [accessEffect, writeAccess, hmap]

/-- A write of CMD is a command request, answered without `err` (R24, R61). -/
theorem busCycle_cmdWrite {s : State} {w : Word} {rest : List PortIn}
    (hinputs : s.inputs = writeAccess 0x008 w :: rest) :
    busCycle s (writeAccess 0x008 w) = requestCommand (recordWrite s rest) w :=
  busCycle_write_mapped hinputs (t := .cmd) rfl

/-- The step of a CMD write to an idle block is the accept (R101). -/
theorem step_of_cmdWrite_idle {s : State} {w : Word} {rest : List PortIn}
    (h : Presents s (writeAccess 0x008 w) rest) (hbusy : s.status.busy = false) (hidle : s.phase = .idle) :
    step s = .next (accept (recordWrite s rest) w) := by
  have ⟨_, hinputs, _⟩ := h
  rw [step_of_presents h, busCycle_cmdWrite hinputs]
  simp [engineEdge, hidle, requestCommand, recordWrite, hbusy]

/-- The step of a CMD write to a running block is the drop, then the ENGINE's edge (R102). -/
theorem step_of_cmdWrite_busy {s : State} {w : Word} {rest : List PortIn}
    (h : Presents s (writeAccess 0x008 w) rest) (hbusy : s.status.busy = true) :
    step s = engineEdge s (dropCommand (recordWrite s rest)) := by
  have ⟨_, hinputs, _⟩ := h
  rw [step_of_presents h, busCycle_cmdWrite hinputs]
  simp [requestCommand, recordWrite, hbusy]

/-- While a command runs the reads of its outcome are free draws (R285). -/
theorem readTarget_of_busy {s : State} {t : Target} (hbusy : s.status.busy = true) (h : t.holdsOutcome = true) :
    readTarget s t = Config.busyRead s.draws := by
  simp [readTarget, hbusy, h]

/-- LATENCY is at least 1 (R290). -/
theorem one_le_latency (op : OpCode) (a b : Word) : 1 ≤ Config.latency op a b := Nat.le_add_left 1 _

/-- Settles O39: the fields of the accept. -/
theorem cmdWriteWhileIdleIsAccepted : Obligations.CmdWriteWhileIdleIsAccepted := by
  intro s w rest hpresents hbusy hidle
  have hport : (recordWrite s rest).port =
      { rdata := 0, err := false, busy := false, done := s.status.done } := by simp [recordWrite, hbusy]
  have ⟨hseen, _, _⟩ := hpresents
  exact ⟨accept (recordWrite s rest) w, step_of_cmdWrite_idle hpresents hbusy hidle, rfl, rfl, rfl, rfl, rfl, rfl,
    rfl, rfl, one_le_latency _ _ _, rfl, rfl, rfl, rfl, rfl, rfl, hseen, rfl, hport, fun g hg => readTarget_of_busy rfl hg⟩

/-- Settles O40: the drop leaves the running command, whose edge is a further one or the completion. -/
theorem cmdWriteWhileBusyIsDropped : Obligations.CmdWriteWhileBusyIsDropped := by
  intro s w rest t0 hpresents hbusy hrun ht0
  obtain ⟨hlatW, hlatA, hlatB, hdrop⟩ : t0.latW = s.latW ∧ t0.latA = s.latA ∧ t0.latB = s.latB ∧
      dropCommand (recordWrite s rest) = t0 := by
    subst ht0; exact ⟨rfl, rfl, rfl, by rw [recordWrite, hbusy]; rfl⟩
  have hstep : step s = engineEdge s t0 := hdrop ▸ step_of_cmdWrite_busy hpresents hbusy
  refine ⟨fun hleft => ?running, fun hlast => ?completing⟩
  case running => exact ⟨runOn t0, hstep.trans (engineEdge_of_running t0 hrun hleft), by subst ht0; rfl⟩
  case completing =>
    rw [engineEdge_of_last t0 hrun hlast, runCommand_eq_complete, hlatW, hlatA, hlatB] at hstep
    exact ⟨_, hstep, complete_completed t0 _, hlatW ▸ complete_holdsOutcome t0 _, complete_frame t0 _⟩

end Sys2Proof.Machine
end

section
/-! A running command from its accept to its completion edge, whatever the HOST does (R103, R288). -/

namespace Sys2Proof.Machine

/-- A write to a running block changes neither DONE nor the trace buffer, and of the model's own fields neither the
schedule nor that a reset edge has happened. -/
theorem writeTarget_keeps_of_busy (s : State) (t : Target) (v : Word) (hbusy : s.status.busy = true) :
    (writeTarget s t v).resetSeen = s.resetSeen ∧ (writeTarget s t v).status.done = s.status.done ∧
      (writeTarget s t v).trace = s.trace ∧ (writeTarget s t v).inputs = s.inputs := by
  obtain ⟨-, h⟩ | ⟨-, h⟩ | ⟨-, h⟩ | ⟨-, h⟩ | h := writeTarget_cases s t v <;> rw [h]
  · exact ⟨rfl, rfl, rfl, rfl⟩
  · exact ⟨rfl, rfl, rfl, rfl⟩
  · simp [requestCommand, hbusy]
  · simp
  · exact ⟨rfl, rfl, rfl, rfl⟩

/-- An access to a running block changes neither DONE nor the trace buffer; the cycle uses up one scheduled input. -/
theorem busCycle_keeps_of_busy (s : State) (p : PortIn) (hbusy : s.status.busy = true) :
    (busCycle s p).resetSeen = s.resetSeen ∧ (busCycle s p).status.done = s.status.done ∧
      (busCycle s p).trace = s.trace ∧ (busCycle s p).inputs = s.inputs.tail := by
  unfold busCycle
  obtain h | ⟨-, -, t, -, h⟩ := accessEffect_cases (recordCycle s p) p <;> rw [h]
  · exact ⟨rfl, rfl, rfl, rfl⟩
  · exact writeTarget_keeps_of_busy (recordCycle s p) t p.wdata hbusy

/-- The block `s`, out of reset, runs the command latched in `c` with `n` edges to go; DONE and the trace buffer are as
in `c`. -/
structure Running (c : State) (n : Nat) (s : State) : Prop where
  resetSeen : s.resetSeen = true
  phase : s.phase = .run
  busy : s.status.busy = true
  done : s.status.done = c.status.done
  remaining : s.remaining = n
  latW : s.latW = c.latW
  latA : s.latA = c.latA
  latB : s.latB = c.latB
  trace : s.trace = c.trace

section

variable {c s : State} {n : Nat}

/-- No access of the HOST disturbs a running command (R288). -/
theorem Running.after_busCycle (h : Running c n s) (p : PortIn) : Running c n (busCycle s p) := by
  have same := busCycle_sameCommand s p h.busy
  obtain ⟨hseen, hdone, htrace, -⟩ := busCycle_keeps_of_busy s p h.busy
  exact ⟨hseen.trans h.resetSeen, same.phase.trans h.phase, same.busy.trans h.busy, hdone.trans h.done,
    same.remaining.trans h.remaining, same.latW.trans h.latW, same.latA.trans h.latA, same.latB.trans h.latB,
    htrace.trans h.trace⟩

/-- An edge of the run phase that is not the last one leaves one edge less to go. -/
theorem Running.after_runOn (h : Running c (n + 1) s) : Running c n (runOn s) :=
  ⟨h.resetSeen, h.phase, h.busy, h.done, by simp [h.remaining], h.latW, h.latA, h.latB, h.trace⟩

/-- A running block with more than one edge to go runs on, whatever the HOST does, as long as reset is not asserted. -/
theorem Running.step_next (h : Running c (n + 2) s) (hrst : (currentInput s).rst = false) :
    ∃ t, step s = .next t ∧ Running c (n + 1) t ∧ t.inputs = s.inputs.tail := by
  obtain ⟨-, -, -, hinputs⟩ := busCycle_keeps_of_busy s (currentInput s) h.busy
  have hleft : 1 < s.remaining := by rw [h.remaining]; omega
  exact ⟨_, (step_of_out_of_reset h.resetSeen hrst).trans (engineEdge_of_running _ h.phase hleft),
    (h.after_busCycle _).after_runOn, hinputs⟩

/-- The last edge of a running command is its completion, on a state that still holds what its accept latched. -/
theorem Running.step_last (h : Running c 1 s) (hrst : (currentInput s).rst = false) :
    ∃ u, Running c 1 u ∧ step s = .next (complete u (commandOutcome c.latW c.latA c.latB)) := by
  have hbus := h.after_busCycle (currentInput s)
  refine ⟨_, hbus, ?_⟩
  rw [step_of_out_of_reset h.resetSeen hrst, engineEdge_of_last _ h.phase h.remaining.le, runCommand_eq_complete,
    hbus.latW, hbus.latA, hbus.latB]

/-- The schedule `ins` asserts no reset in its next `n` cycles; after its end every cycle is idle. -/
def NoReset (n : Nat) (ins : List PortIn) : Prop := ∀ p ∈ ins.take n, p.rst = false

theorem NoReset.mono {m : Nat} {ins : List PortIn} (h : NoReset n ins) (hm : m ≤ n) : NoReset m ins :=
  fun p hp => h p (List.take_subset_take_left ins hm hp)

theorem NoReset.tail {ins : List PortIn} (h : NoReset (n + 1) ins) : NoReset n ins.tail := by
  cases ins with
  | nil => simp [NoReset]
  | cons q rest => exact fun p hp => h p (List.mem_cons_of_mem q hp)

theorem NoReset.currentInput_rst (h : NoReset (n + 1) s.inputs) : (currentInput s).rst = false := by
  unfold currentInput
  cases hins : s.inputs with
  | nil => rfl
  | cons q rest => exact h q (by simp [hins])

/-- A run takes its first step first, for any machine of the host's interface. -/
theorem core_run_succ (M : Host.Core) {s t : M.State} (k : Nat) (h : M.step s = .next t) :
    M.run (k + 1) s = M.run k t := by
  rw [Host.Core.run, h]

/-- A run of the block takes its first step first. -/
theorem run_succ_of_step {t : State} (k : Nat) (h : step s = .next t) : core.run (k + 1) s = core.run k t :=
  core_run_succ core k h

/-- A running command is still running before its completion edge (R103). -/
theorem Running.run_of_lt {k : Nat} (h : Running c n s) (hk : k < n) (hins : NoReset k s.inputs) :
    ∃ u, core.run k s = .next u ∧ Running c (n - k) u := by
  induction k generalizing n s with
  | zero => exact ⟨s, rfl, h⟩
  | succ k ih =>
    obtain ⟨m, rfl⟩ : ∃ m, n = m + 2 := ⟨n - 2, by omega⟩
    obtain ⟨t, hstep, ht, htins⟩ := h.step_next hins.currentInput_rst
    obtain ⟨u, hrun, hu⟩ := ih ht (by omega) (htins ▸ hins.tail)
    have hleft : m + 2 - (k + 1) = m + 1 - k := by omega
    exact ⟨u, (run_succ_of_step k hstep).trans hrun, hleft ▸ hu⟩

/-- A running command completes at the last of its edges with its own outcome (R103, R288). -/
theorem Running.run_completes (h : Running c (n + 1) s) (hins : NoReset (n + 1) s.inputs) :
    ∃ u, Running c 1 u ∧ core.run (n + 1) s = .next (complete u (commandOutcome c.latW c.latA c.latB)) := by
  induction n generalizing s with
  | zero =>
    obtain ⟨u, hu, hstep⟩ := h.step_last hins.currentInput_rst
    exact ⟨u, hu, run_succ_of_step 0 hstep⟩
  | succ n ih =>
    obtain ⟨t, hstep, ht, htins⟩ := h.step_next hins.currentInput_rst
    obtain ⟨u, hu, hrun⟩ := ih ht (htins ▸ hins.tail)
    exact ⟨u, hu, (run_succ_of_step (n + 1) hstep).trans hrun⟩

/-- An accepted command runs, with its LATENCY to go (R101, R103). -/
theorem accept_running (hseen : s.resetSeen = true) (w : Word) :
    Running (accept s w) (Config.latency (opField w) s.opa s.opb) (accept s w) :=
  ⟨hseen, rfl, rfl, rfl, rfl, rfl, rfl, rfl, rfl⟩

end

/-- Settles O41: the accept, then the run of the accepted command to its completion edge. -/
theorem commandCompletesAtItsLatency : Obligations.CommandCompletesAtItsLatency := by
  intro s w rest l hpresents hbusy hidle hl hins
  have ⟨hseen, _, _⟩ := hpresents
  have haccept := step_of_cmdWrite_idle hpresents hbusy hidle
  have hrunning : Running (accept (recordWrite s rest) w) l (accept (recordWrite s rest) w) :=
    hl ▸ accept_running (s := recordWrite s rest) hseen w
  refine ⟨fun n hpos hle => ?busy, ?completed⟩
  case busy =>
    obtain ⟨k, rfl⟩ : ∃ k, n = k + 1 := ⟨n - 1, by omega⟩
    obtain ⟨u, hrun, hu⟩ := hrunning.run_of_lt hle (NoReset.mono hins (by omega))
    exact ⟨u, (run_succ_of_step k haccept).trans hrun, hu.busy, hu.done⟩
  case completed =>
    obtain ⟨m, rfl⟩ := Nat.exists_eq_add_of_le' (hl ▸ one_le_latency _ _ _)
    obtain ⟨u, hu, hrun⟩ := hrunning.run_completes hins
    have hlatW : u.latW = w := hu.latW
    have htrace : u.trace = s.trace := hu.trace
    refine ⟨complete u (commandOutcome w s.opa s.opb), (run_succ_of_step (m + 1) haccept).trans hrun,
      complete_completed u _, hlatW ▸ complete_holdsOutcome u _, fun k hk => ⟨?unwritten, fun j => ?readsZero⟩⟩
    case unwritten => rw [complete_trace, writeTrace_of_le _ _ k hk, htrace]
    case readsZero => exact readTarget_trace_of_len_le _ k j rfl ((CmdOutcome.len_le _).trans hk)

end Sys2Proof.Machine
end

section
/-! Control words by the bit places of R34, and a completion without error said once (R103, R104). -/

namespace Sys2Proof.Machine

theorem bitNat_lt_two (x : Bool) : bitNat x < 2 := by cases x <;> decide

/-- The bit places of a control word (R34). -/
theorem Control.word_toNat (c : Control) : c.word.toNat =
    c.kind.code.toNat + 2 ^ 4 * c.pos.toNat + 2 ^ 16 * bitNat c.a + 2 ^ 17 * bitNat c.b + 2 ^ 18 * bitNat c.cin
      + 2 ^ 19 * bitNat c.out + 2 ^ 20 * bitNat c.cout + 2 ^ 21 * bitNat c.test + 2 ^ 24 * c.count.toNat := by
  simp only [Control.word, toNat_append_eq_add, toNat_ofBool_eq_bitNat, BitVec.toNat_ofNat]
  omega

/-- The two ways to write a control word agree: by its fields, and by numbers at the places of R34. -/
theorem Control.word_eq_controlWord (c : Control) : c.word =
    controlWord c.kind.code.toNat c.pos.toNat (bitNat c.a) (bitNat c.b) (bitNat c.cin) (bitNat c.out)
      (bitNat c.cout) (bitNat c.test) c.count.toNat := by
  rw [controlWord, ← Control.word_toNat, BitVec.ofNat_toNat, BitVec.setWidth_eq]

/-- A bit of a word is a digit of its number. -/
theorem getLsbD_eq_of_div_mod {v : Word} {i : Nat} {x : Bool} (h : v.toNat / 2 ^ i % 2 = bitNat x) :
    v.getLsbD i = x := by
  rw [← BitVec.testBit_toNat, Nat.testBit_eq_decide_div_mod_eq, h]
  cases x <;> rfl

section
variable (c : Control) (v1 v2 v3 : Word)

@[simp] theorem entryOf_posField : (entryOf c v1 v2 v3).posField = c.pos := by
  have hkind := c.kind.code.isLt
  have hpos := c.pos.isLt
  apply BitVec.eq_of_toNat_eq
  simp only [TraceEntry.posField, entryOf, BitVec.extractLsb'_toNat, Control.word_toNat, Nat.shiftRight_eq_div_pow]
  omega

@[simp] theorem entryOf_outField : (entryOf c v1 v2 v3).outField = c.out := by
  have hkind := c.kind.code.isLt
  have hpos := c.pos.isLt
  have hbits := And.intro (bitNat_lt_two c.a) (And.intro (bitNat_lt_two c.b) (bitNat_lt_two c.cin))
  have hout := bitNat_lt_two c.out
  apply getLsbD_eq_of_div_mod
  simp only [entryOf, Control.word_toNat]
  omega

@[simp] theorem entryOf_coutField : (entryOf c v1 v2 v3).coutField = c.cout := by
  have hkind := c.kind.code.isLt
  have hpos := c.pos.isLt
  have hbits := And.intro (bitNat_lt_two c.a) (And.intro (bitNat_lt_two c.b) (bitNat_lt_two c.cin))
  have hout := bitNat_lt_two c.out
  have hcout := bitNat_lt_two c.cout
  apply getLsbD_eq_of_div_mod
  simp only [entryOf, Control.word_toNat]
  omega

end

/-- A completion with a normal outcome whose lengths fit the 6-bit fields of TRACE_HDR (R32, R103, R104). -/
theorem complete_completesNormally (s : State) (r r2 : Word) {padw : Nat} {es : List TraceEntry} (hpadw : padw < 64)
    (hlen : es.length < 64) : CompletesNormally s (complete s (normalOutcome r r2 padw es)) r r2 padw es := by
  have hheader : TraceIs s (complete s (normalOutcome r r2 padw es)) padw es :=
    ⟨rfl, Nat.mod_eq_of_lt hpadw, Nat.mod_eq_of_lt hlen, fun k e he => writeTrace_of_some s.trace es k e he⟩
  exact ⟨rfl, rfl, complete_completed s _, ⟨rfl, rfl, rfl⟩, hheader, complete_frame s _⟩

end Sys2Proof.Machine
end

section
/-! Column arithmetic (R141, R144). ADD and SUB write the same trace up to the kind and the carry of their cell, so the
trace is described once for any cell `co`, most-significant position first. -/

namespace Sys2Proof.Machine

/-- The carry or borrow into position `p`, from 0 at position 0. -/
def columnCarry (co : Bool → Bool → Bool → Bool) (a b : Word) : Nat → Bool
  | 0 => false
  | p + 1 => co (bitAt a p) (bitAt b p) (columnCarry co a b p)

/-- The output bit of position `p`. -/
def columnOut (co : Bool → Bool → Bool → Bool) (a b : Word) (p : Nat) : Bool :=
  cellOut (bitAt a p) (bitAt b p) (columnCarry co a b p)

/-- The entry of position `p`. -/
def columnEntry (kind : Kind) (co : Bool → Bool → Bool → Bool) (a b : Word) (p : Nat) : TraceEntry :=
  entryOf { kind := kind, pos := BitVec.ofNat 6 p, a := bitAt a p, b := bitAt b p, cin := columnCarry co a b p,
            out := columnOut co a b p, cout := columnCarry co a b (p + 1) }

/-- The entries of the positions below `n`, most-significant first. -/
def columnTrace (kind : Kind) (co : Bool → Bool → Bool → Bool) (a b : Word) : Nat → List TraceEntry
  | 0 => []
  | n + 1 => columnEntry kind co a b n :: columnTrace kind co a b n

theorem addColumns_reverse_append (a b : Word) (n p : Nat) :
    (addColumns a b n p (columnCarry carryOut a b p)).reverse ++ columnTrace .addBit carryOut a b p =
      columnTrace .addBit carryOut a b (p + n) := by
  induction n generalizing p with
  | zero => rfl
  | succ n ih =>
    rw [addColumns, List.reverse_cons, List.append_assoc, ← Nat.add_assoc, Nat.add_right_comm]
    exact ih (p + 1)

theorem subColumns_reverse_append (a b : Word) (n p : Nat) :
    (subColumns a b n p (columnCarry borrowOut a b p)).reverse ++ columnTrace .subBit borrowOut a b p =
      columnTrace .subBit borrowOut a b (p + n) := by
  induction n generalizing p with
  | zero => rfl
  | succ n ih =>
    rw [subColumns, List.reverse_cons, List.append_assoc, ← Nat.add_assoc, Nat.add_right_comm]
    exact ih (p + 1)

/-- The ADD trace is the column trace of the full adder (R141). -/
theorem addTrace_eq_columnTrace (a b : Word) :
    addTrace a b = columnTrace .addBit carryOut a b (sumWidth a b) := by
  simpa [addTrace, columnTrace, columnCarry] using addColumns_reverse_append a b (sumWidth a b) 0

/-- The SUB trace is the column trace of the full subtractor (R144). -/
theorem subTrace_eq_columnTrace (a b : Word) :
    subTrace a b = columnTrace .subBit borrowOut a b (sumWidth a b) := by
  simpa [subTrace, columnTrace, columnCarry] using subColumns_reverse_append a b (sumWidth a b) 0

@[simp] theorem outSum_nil : outSum [] = 0 := rfl

theorem outSum_cons (e : TraceEntry) (es : List TraceEntry) :
    outSum (e :: es) = 2 ^ e.posField.toNat * bitNat e.outField + outSum es := by
  cases h : e.outField <;> simp [outSum, bitNat, h]

section
variable (kind : Kind) (co : Bool → Bool → Bool → Bool) (a b : Word)

@[simp] theorem columnTrace_length (n : Nat) : (columnTrace kind co a b n).length = n := by
  induction n with
  | zero => rfl
  | succ n ih => rw [columnTrace, List.length_cons, ih]

/-- Entry `n-1-p` holds position `p` (R141, R144). -/
theorem columnTrace_getElem? {n p : Nat} (hp : p < n) :
    (columnTrace kind co a b n)[n - 1 - p]? = some (columnEntry kind co a b p) := by
  induction n with
  | zero => omega
  | succ n ih =>
    rw [columnTrace, Nat.add_sub_cancel]
    obtain rfl | hlt := Nat.eq_or_lt_of_le (Nat.lt_succ_iff.1 hp)
    · simp
    · rw [show n - p = n - 1 - p + 1 by omega, List.getElem?_cons_succ, ih hlt]

/-- COUT of entry 0 is the carry out of the top position (R142, R145). -/
theorem finalCarry_columnTrace {n : Nat} (hn : 0 < n) :
    finalCarry (columnTrace kind co a b n) = columnCarry co a b n := by
  obtain ⟨m, rfl⟩ := Nat.exists_eq_add_of_lt hn
  simp [finalCarry, columnTrace, columnEntry]

/-- The sum of a trace gains the output bit of each further position, as far as the 6-bit field POS can name it. -/
theorem outSum_columnTrace_succ {n : Nat} (hn : n < 64) : outSum (columnTrace kind co a b (n + 1)) =
    2 ^ n * bitNat (columnOut co a b n) + outSum (columnTrace kind co a b n) := by
  simp [columnTrace, outSum_cons, columnEntry, Nat.mod_eq_of_lt hn]

theorem outSum_columnTrace_lt {n : Nat} (hn : n ≤ 64) : outSum (columnTrace kind co a b n) < 2 ^ n := by
  induction n with
  | zero => simp [columnTrace]
  | succ n ih =>
    rw [outSum_columnTrace_succ kind co a b (by omega), pow_succ]
    have hlow := ih (by omega)
    cases columnOut co a b n <;> simp only [bitNat, if_true, Bool.false_eq_true, if_false] <;> omega

/-- A column entry by the bit places of R34. -/
theorem columnEntry_eq_controlWord {p : Nat} (hp : p < 64) : columnEntry kind co a b p =
    { tw0 := controlWord kind.code.toNat p (bitNat (bitAt a p)) (bitNat (bitAt b p)) (bitNat (columnCarry co a b p))
        (bitNat (columnOut co a b p)) (bitNat (columnCarry co a b (p + 1))) 0 0,
      tv1 := 0, tv2 := 0, tv3 := 0 } := by
  have hpos : (BitVec.ofNat 6 p).toNat = p := Nat.mod_eq_of_lt hp
  rw [columnEntry, entryOf, Control.word_eq_controlWord, hpos]
  rfl

end

theorem bitNat_bitAt (v : Word) (p : Nat) : bitNat (bitAt v p) = natBit (u32 v) p := by
  rw [bitAt, ← BitVec.testBit_toNat, Nat.testBit_eq_decide_div_mod_eq, natBit, u32, bitNat]
  split <;> simp_all

/-- The low `p + 1` bits are the low `p` bits and bit `p`. -/
theorem u32_mod_pow_succ (v : Word) (p : Nat) :
    u32 v % 2 ^ (p + 1) = u32 v % 2 ^ p + 2 ^ p * bitNat (bitAt v p) := by
  rw [bitNat_bitAt, natBit, Nat.mod_pow_succ]

/-- A pattern has no bit at or above its bit length (R114). -/
theorem u32_lt_two_pow_bitLength (v : Word) : u32 v < 2 ^ bitLength v := by
  obtain hneg | hzero | hpos := lt_trichotomy (s32 v) 0
  · rw [bitLength_of_neg hneg]
    exact v.isLt
  · obtain rfl : v = 0 := by rw [← wrap32_s32 v, hzero]; rfl
    decide
  · rw [bitLength_of_pos hpos, Nat.add_comm]
    exact Nat.lt_log2_self

theorem sumWidth_pos (a b : Word) : 0 < sumWidth a b := Nat.succ_pos _

/-- The 6-bit fields POS, PADW and LEN can hold `W` (R32, R34). -/
theorem sumWidth_lt (a b : Word) : sumWidth a b < 64 := (sumWidth_le a b).trans_lt (by decide)

/-- Both operands of a column trace are below `2^(W-1)` (R142). -/
theorem u32_lt_two_pow_of_sumWidth (a b : Word) :
    2 * u32 a < 2 ^ sumWidth a b ∧ 2 * u32 b < 2 ^ sumWidth a b := by
  have ha : 2 ^ bitLength a ≤ 2 ^ max (bitLength a) (bitLength b) :=
    Nat.pow_le_pow_right (by decide) (le_max_left _ _)
  have hb : 2 ^ bitLength b ≤ 2 ^ max (bitLength a) (bitLength b) :=
    Nat.pow_le_pow_right (by decide) (le_max_right _ _)
  have ha' := u32_lt_two_pow_bitLength a
  have hb' := u32_lt_two_pow_bitLength b
  rw [sumWidth, pow_succ]
  omega

end Sys2Proof.Machine
end

section
/-! ADD (R140 to R142). -/

namespace Sys2Proof.Machine

/-- The columns of an addition: the output bits and the outgoing carry make up the sum of the low bits. -/
theorem outSum_add_carry (a b : Word) {n : Nat} (hn : n ≤ 64) :
    outSum (columnTrace .addBit carryOut a b n) + 2 ^ n * bitNat (columnCarry carryOut a b n) =
      u32 a % 2 ^ n + u32 b % 2 ^ n := by
  induction n with
  | zero => simp [columnTrace, columnCarry, bitNat, Nat.mod_one]
  | succ n ih =>
    rw [outSum_columnTrace_succ _ _ _ _ (by omega), u32_mod_pow_succ, u32_mod_pow_succ, columnCarry, columnOut,
      pow_succ]
    have hcell := fullAdder_identity (bitAt a n) (bitAt b n) (columnCarry carryOut a b n)
    linear_combination ih (by omega) + 2 ^ n * hcell.symm

theorem bitNat_columnCarry_add (a b : Word) {n : Nat} (hn : n ≤ 64) :
    bitNat (columnCarry carryOut a b n) = carryInto (u32 a) (u32 b) n := by
  rw [carryInto, ← outSum_add_carry a b hn, Nat.add_mul_div_left _ _ (Nat.two_pow_pos n),
    Nat.div_eq_of_lt (outSum_columnTrace_lt _ _ a b hn), Nat.zero_add]

theorem outSum_columnTrace_add (a b : Word) {n : Nat} (hn : n ≤ 64) :
    outSum (columnTrace .addBit carryOut a b n) = (u32 a + u32 b) % 2 ^ n := by
  rw [Nat.add_mod, ← outSum_add_carry a b hn, Nat.add_mul_mod_self_left,
    Nat.mod_eq_of_lt (outSum_columnTrace_lt _ _ a b hn)]

/-- The output bit of a column is the bit of the sum: one more column adds just that bit. -/
theorem bitNat_columnOut_add (a b : Word) {p : Nat} (hp : p < 64) :
    bitNat (columnOut carryOut a b p) = natBit (u32 a + u32 b) p := by
  have hstep := outSum_columnTrace_succ .addBit carryOut a b hp
  rw [outSum_columnTrace_add a b hp, outSum_columnTrace_add a b hp.le, Nat.mod_pow_succ, Nat.add_comm] at hstep
  exact (Nat.eq_of_mul_eq_mul_left (Nat.two_pow_pos p) (Nat.add_right_cancel hstep)).symm

theorem columnEntry_add (a b : Word) {p : Nat} (hp : p < 64) :
    columnEntry .addBit carryOut a b p = addEntry (u32 a) (u32 b) p := by
  rw [columnEntry_eq_controlWord _ _ _ _ hp, bitNat_bitAt, bitNat_bitAt, bitNat_columnCarry_add a b hp.le,
    bitNat_columnOut_add a b hp, bitNat_columnCarry_add a b hp]
  rfl

theorem addTrace_length (a b : Word) : (addTrace a b).length = sumWidth a b := by
  rw [addTrace_eq_columnTrace, columnTrace_length]

/-- Settles O1: the carry loop gives the wrapped sum, and PADW and LEN fit their fields. -/
theorem addCompletesWithWrappedSum : Obligations.AddCompletesWithWrappedSum := by
  refine ⟨decode_encode .add, fun s => ⟨_, exec_eq_complete .add s, ?_⟩⟩
  have hsum : add32 s.latA s.latB = wrap32 (s32 s.latA + s32 s.latB) := by simp [add32_eq_add, wrap32_add]
  rw [← hsum]
  exact complete_completesNormally s _ _ (sumWidth_lt _ _) (by rw [addTrace_length]; exact sumWidth_lt _ _)

/-- Settles O2: entry `W-1-p` is the column at `p`, and `W` is within the reach of POS. -/
theorem addTraceIsColumnAddition : Obligations.AddTraceIsColumnAddition := by
  rintro a b _ rfl
  refine ⟨addTrace_length a b, fun p hp => ?_⟩
  rw [addTrace_eq_columnTrace, ← columnEntry_add a b (hp.trans (sumWidth_lt a b))]
  exact columnTrace_getElem? _ _ _ _ hp

/-- Settles O3: both operands are below `2^(W-1)`, so the sum has no bit at `W` or above. -/
theorem addReplayGivesResult : Obligations.AddReplayGivesResult := by
  intro a b
  obtain ⟨ha, hb⟩ := u32_lt_two_pow_of_sumWidth a b
  have hw := (sumWidth_lt a b).le
  rw [addTrace_eq_columnTrace]
  constructor
  case left =>
    rw [replayBits, outSum_columnTrace_add a b hw, Nat.mod_eq_of_lt (by omega)]
    simp [addOutcome, normalOutcome, add32_eq_add, wrap32_add]
  case right =>
    have hcarry : bitNat (columnCarry carryOut a b (sumWidth a b)) = 0 := by
      rw [bitNat_columnCarry_add a b hw, carryInto, Nat.mod_eq_of_lt (by omega), Nat.mod_eq_of_lt (by omega)]
      exact Nat.div_eq_of_lt (by omega)
    rw [finalCarry_columnTrace _ _ _ _ (sumWidth_pos a b)]
    simpa [bitNat] using hcarry

end Sys2Proof.Machine
end

section
/-! SUB (R143 to R145). -/

namespace Sys2Proof.Machine

/-- The columns of a subtraction: the output bits less the outgoing borrow make up the difference of the low bits. -/
theorem outSum_sub_borrow (a b : Word) {n : Nat} (hn : n ≤ 64) :
    outSum (columnTrace .subBit borrowOut a b n) + u32 b % 2 ^ n =
      u32 a % 2 ^ n + 2 ^ n * bitNat (columnCarry borrowOut a b n) := by
  induction n with
  | zero => simp [columnTrace, columnCarry, bitNat, Nat.mod_one]
  | succ n ih =>
    rw [outSum_columnTrace_succ _ _ _ _ (by omega), u32_mod_pow_succ, u32_mod_pow_succ, columnCarry, columnOut,
      pow_succ]
    have hcell : bitNat (cellOut (bitAt a n) (bitAt b n) (columnCarry borrowOut a b n)) + bitNat (bitAt b n)
        + bitNat (columnCarry borrowOut a b n) =
          bitNat (bitAt a n) + 2 * bitNat (borrowOut (bitAt a n) (bitAt b n) (columnCarry borrowOut a b n)) := by
      have := fullSubtractor_identity (bitAt a n) (bitAt b n) (columnCarry borrowOut a b n)
      omega
    linear_combination ih (by omega) + 2 ^ n * hcell

/-- The borrow out of the low `n` columns is their unsigned comparison: the output bits alone stay below `2^n`. -/
theorem columnCarry_sub (a b : Word) {n : Nat} (hn : n ≤ 64) :
    columnCarry borrowOut a b n = decide (u32 a % 2 ^ n < u32 b % 2 ^ n) := by
  have hcolumns := outSum_sub_borrow a b hn
  have hsum := outSum_columnTrace_lt .subBit borrowOut a b hn
  have hmod := Nat.mod_lt (u32 b) (Nat.two_pow_pos n)
  cases hborrow : columnCarry borrowOut a b n with
  | false =>
    simp only [hborrow, bitNat, Bool.false_eq_true, if_false] at hcolumns
    exact (decide_eq_false (by omega)).symm
  | true =>
    simp only [hborrow, bitNat, if_true] at hcolumns
    exact (decide_eq_true (by omega)).symm

theorem bitNat_columnCarry_sub (a b : Word) {n : Nat} (hn : n ≤ 64) :
    bitNat (columnCarry borrowOut a b n) = borrowInto (u32 a) (u32 b) n := by
  rw [columnCarry_sub a b hn, borrowInto]

theorem bitNat_cellOut : ∀ x y c : Bool, bitNat (cellOut x y c) = (bitNat x + bitNat y + bitNat c) % 2 := by decide

theorem columnEntry_sub (a b : Word) {p : Nat} (hp : p < 64) :
    columnEntry .subBit borrowOut a b p = subEntry (u32 a) (u32 b) p := by
  rw [columnEntry_eq_controlWord _ _ _ _ hp, columnOut, bitNat_cellOut, bitNat_bitAt, bitNat_bitAt,
    bitNat_columnCarry_sub a b hp.le, bitNat_columnCarry_sub a b hp]
  rfl

theorem subTrace_length (a b : Word) : (subTrace a b).length = sumWidth a b := by
  rw [subTrace_eq_columnTrace, columnTrace_length]

/-- The final borrow of the SUB trace is the unsigned comparison of the patterns (R145). -/
theorem finalCarry_subTrace (a b : Word) : finalCarry (subTrace a b) = decide (u32 a < u32 b) := by
  obtain ⟨ha, hb⟩ := u32_lt_two_pow_of_sumWidth a b
  rw [subTrace_eq_columnTrace, finalCarry_columnTrace _ _ _ _ (sumWidth_pos a b),
    columnCarry_sub a b (sumWidth_lt a b).le, Nat.mod_eq_of_lt (by omega), Nat.mod_eq_of_lt (by omega)]

/-- Settles O4: the borrow loop gives the wrapped difference, and PADW and LEN fit their fields. -/
theorem subCompletesWithWrappedDifference : Obligations.SubCompletesWithWrappedDifference := by
  refine ⟨decode_encode .sub, fun s => ⟨_, exec_eq_complete .sub s, ?_⟩⟩
  have hdifference : sub32 s.latA s.latB = wrap32 (s32 s.latA - s32 s.latB) := by
    simp [sub32_eq_sub, wrap32_add, wrap32_neg, sub_eq_add_neg]
  rw [← hdifference]
  exact complete_completesNormally s _ _ (sumWidth_lt _ _) (by rw [subTrace_length]; exact sumWidth_lt _ _)

/-- Settles O5: entry `W-1-p` is the column at `p`, and `W` is within the reach of POS. -/
theorem subTraceIsColumnSubtraction : Obligations.SubTraceIsColumnSubtraction := by
  rintro a b _ rfl
  refine ⟨subTrace_length a b, fun p hp => ?_⟩
  rw [subTrace_eq_columnTrace, ← columnEntry_sub a b (hp.trans (sumWidth_lt a b))]
  exact columnTrace_getElem? _ _ _ _ hp

/-- Settles O6: the columns less the final borrow make up the difference, for both operands fit in `W` bits. -/
theorem subReplayGivesResult : Obligations.SubReplayGivesResult := by
  intro a b
  refine ⟨?_, finalCarry_subTrace a b⟩
  obtain ⟨ha, hb⟩ := u32_lt_two_pow_of_sumWidth a b
  have hcolumns := outSum_sub_borrow a b (sumWidth_lt a b).le
  rw [← finalCarry_columnTrace .subBit borrowOut a b (sumWidth_pos a b), ← subTrace_eq_columnTrace,
    Nat.mod_eq_of_lt (by omega), Nat.mod_eq_of_lt (by omega)] at hcolumns
  have hborrow : (if finalCarry (subTrace a b) then (2 ^ (subTrace a b).length : Int) else 0) =
      2 ^ sumWidth a b * bitNat (finalCarry (subTrace a b)) := by
    rw [subTrace_length]
    cases finalCarry (subTrace a b) <;> simp [bitNat]
  have hdifference : (outSum (subTrace a b) : Int) -
      (if finalCarry (subTrace a b) then (2 ^ (subTrace a b).length : Int) else 0) = u32 a - u32 b := by
    rw [hborrow]
    zify at hcolumns
    linear_combination hcolumns
  rw [replaySub, hdifference]
  simp [subOutcome, normalOutcome, sub32_eq_sub, wrap32_add, wrap32_neg, sub_eq_add_neg]

end Sys2Proof.Machine
end

section
/-! Patterns that are not negative read alike as signed and as unsigned numbers (R6), and completions that end with an
error or with the unsupported outcome said once (R103, R166, R252). -/

namespace Sys2Proof.Machine

/-- A pattern is not negative when its sign bit is clear (R6). -/
theorem s32_nonneg_iff (v : Word) : 0 ≤ s32 v ↔ u32 v < 2 ^ 31 := by
  have hlt := v.isLt
  rw [s32, u32, BitVec.toInt_eq_toNat_cond]
  split <;> omega

theorem s32_eq_u32 {v : Word} (h : 0 ≤ s32 v) : s32 v = u32 v := by
  have hlt := (s32_nonneg_iff v).1 h
  exact BitVec.toInt_eq_toNat_of_lt (by change 2 * u32 v < 2 ^ 32; omega)

theorem s32_eq_zero_iff (v : Word) : s32 v = 0 ↔ v = 0 := by
  constructor
  · intro h
    rw [← wrap32_s32 v, h]
    rfl
  · rintro rfl
    rfl

/-- `wrap32` of a number below `2^31`, read back signed. -/
theorem s32_wrap32_of_lt {n : Nat} (h : n < 2 ^ 31) : s32 (wrap32 n) = n := by
  have hu : u32 (wrap32 n) = n := u32_wrap32_of_lt (by omega)
  rw [s32_eq_u32 ((s32_nonneg_iff _).2 (hu.symm ▸ h)), hu]

theorem wrap32_mul (i j : Int) : wrap32 (i * j) = wrap32 i * wrap32 j := BitVec.ofInt_mul i j

theorem negativeOperand_eq_true_iff (a b : Word) : negativeOperand a b = true ↔ s32 a < 0 ∨ s32 b < 0 := by
  simp [negativeOperand]

theorem negativeOperand_eq_false {a b : Word} (ha : 0 ≤ s32 a) (hb : 0 ≤ s32 b) : negativeOperand a b = false := by
  simp [negativeOperand, ha, hb]

/-- A completion with the error outcome (R103, R252). -/
theorem complete_completesWithError (s : State) (e : CmdError) :
    CompletesWithError s (complete s (raiseError e)) e.code :=
  ⟨rfl, rfl, complete_completed s _, rfl, rfl, rfl,
    ⟨rfl, rfl, rfl, fun k x hx => writeTrace_of_some s.trace _ k x hx⟩, complete_frame s _⟩

/-- A completion with the unsupported outcome: as many entries as its 6-bit LEN says (R103, R166). -/
theorem complete_completesUnsupported (s : State) (op : OpCode) :
    CompletesUnsupported s (complete s (unsupOutcome op s.latA s.latB)) op := by
  have hlen : (unsupOutcome op s.latA s.latB).entries.length = (Config.unspecLen op s.latA s.latB).toNat := by
    simp [unsupOutcome]
  have htrace : (unsupOutcome op s.latA s.latB).len.toNat = (unsupOutcome op s.latA s.latB).entries.length := by
    rw [CmdOutcome.len, BitVec.toNat_ofNat, hlen, Nat.mod_eq_of_lt (Config.unspecLen op s.latA s.latB).isLt]
  exact ⟨rfl, rfl, complete_completed s _, rfl, rfl, rfl,
    ⟨rfl, rfl, htrace, fun k x hx => writeTrace_of_some s.trace _ k x hx⟩, hlen ▸ complete_frame s _⟩

end Sys2Proof.Machine
end

section
/-! MUL (R160 to R162). The scan of the result and the loop of the trace share one accumulator: after the multiplier
bits below `k` it holds the product of the multiplicand and those bits. -/

namespace Sys2Proof.Machine

/-- The accumulator after the multiplier bits below `k`. -/
def runningProduct (a b : Word) (k : Nat) : Word := wrap32 (u32 a * (u32 b % 2 ^ k) : Nat)

/-- What multiplier bit `k` adds to the accumulator (R161). -/
def contribution (a b : Word) (k : Nat) : Word := if bitAt b k then shl32 a (shiftAmount k) else 0

section
variable (a b : Word)

/-- The partial product of multiplier bit `k` (R161). -/
theorem shl32_shiftAmount {k : Nat} (hk : k < 32) : shl32 a (shiftAmount k) = wrap32 (u32 a * 2 ^ k : Nat) := by
  rw [shl32_eq_wrap32, shiftAmount, BitVec.toNat_ofNat, Nat.mod_eq_of_lt hk]

theorem contribution_eq_wrap32 {k : Nat} (hk : k < 32) :
    contribution a b k = wrap32 (natBit (u32 b) k * (u32 a * 2 ^ k) : Nat) := by
  rw [contribution, ← bitNat_bitAt, shl32_shiftAmount a hk]
  cases bitAt b k
  · simp [bitNat, wrap32]
  · simp [bitNat]

/-- One more multiplier bit. -/
theorem add32_contribution {k : Nat} (hk : k < 32) :
    add32 (runningProduct a b k) (contribution a b k) = runningProduct a b (k + 1) := by
  rw [add32_eq_add, contribution_eq_wrap32 a b hk, runningProduct, runningProduct, ← wrap32_add, ← Nat.cast_add,
    u32_mod_pow_succ, bitNat_bitAt]
  congr 2
  ring

@[simp] theorem runningProduct_zero : runningProduct a b 0 = 0 := by
  simp [runningProduct, Nat.mod_one, wrap32]

/-- Multiplier bits that are all taken in leave the whole product. -/
theorem runningProduct_of_lt {n : Nat} (h : u32 b < 2 ^ n) : runningProduct a b n = a * b := by
  rw [runningProduct, Nat.mod_eq_of_lt h, Nat.cast_mul, wrap32_mul, wrap32_u32, wrap32_u32]

/-- The scan of R160 from bit `k`, as soon as the bits below `k` are taken in. -/
theorem mulScan_runningProduct {n k : Nat} (h : k + n ≤ 32) :
    mulScan a b n k (runningProduct a b k) = runningProduct a b (k + n) := by
  induction n generalizing k with
  | zero => rfl
  | succ n ih =>
    have hstep : (if bitAt b k then add32 (runningProduct a b k) (shl32 a (shiftAmount k)) else runningProduct a b k) =
        runningProduct a b (k + 1) := by
      rw [← add32_contribution a b (by omega), contribution]
      split <;> simp [add32_eq_add]
    rw [mulScan, hstep, ih (by omega), Nat.add_right_comm, Nat.add_assoc]

/-- The scan of all 32 multiplier bits gives the wrapped product, whatever the signs (R160). -/
theorem mulScan_eq_mul : mulScan a b 32 0 0 = a * b := by
  rw [← runningProduct_zero a b, mulScan_runningProduct a b le_rfl, runningProduct_of_lt a b b.isLt]

/-- The entry of multiplier bit `k` by its fields (R161). -/
theorem mulEntry_eq_entryOf {k : Nat} (hk : k < 32) : mulEntry (u32 a) (u32 b) k =
    entryOf { kind := .mulBit, pos := BitVec.ofNat 6 k, b := bitAt b k, out := bitAt b k }
      (shl32 a (shiftAmount k)) (contribution a b k) (runningProduct a b (k + 1)) := by
  have hpos : (BitVec.ofNat 6 k).toNat = k := Nat.mod_eq_of_lt (hk.trans (by decide))
  rw [entryOf, Control.word_eq_controlWord, hpos, bitNat_bitAt, shl32_shiftAmount a hk, contribution_eq_wrap32 a b hk]
  rfl

/-- The loop of R161 from bit `k`, as soon as the bits below `k` are taken in. -/
theorem mulSteps_runningProduct {n k : Nat} (h : k + n ≤ 32) :
    mulSteps a b n k (runningProduct a b k) = (List.range' k n).map (mulEntry (u32 a) (u32 b)) := by
  induction n generalizing k with
  | zero => rfl
  | succ n ih =>
    rw [List.range'_succ, List.map_cons, ← ih (by omega), mulEntry_eq_entryOf a b (by omega),
      ← add32_contribution a b (by omega)]
    rfl

theorem mulTrace_eq_map_range : mulTrace a b = (List.range (mulLength b)).map (mulEntry (u32 a) (u32 b)) := by
  rw [List.range_eq_range', ← mulSteps_runningProduct a b (by simpa using mulLength_le b), runningProduct_zero]
  rfl

theorem mulTrace_length : (mulTrace a b).length = mulLength b := mulSteps_length a b _ 0 0

/-- The trace reaches past every set bit of the multiplier (R161). -/
theorem u32_lt_two_pow_mulLength : u32 b < 2 ^ mulLength b :=
  (u32_lt_two_pow_bitLength b).trans_le (Nat.pow_le_pow_right (by decide) (le_max_right _ _))

/-- Every multiplier bit at or above the trace's length is 0 (R162). -/
theorem bitAt_of_mulLength_le {p : Nat} (hp : mulLength b ≤ p) : bitAt b p = false := by
  rw [bitAt, ← BitVec.testBit_toNat]
  exact Nat.testBit_lt_two_pow ((u32_lt_two_pow_mulLength b).trans_le (Nat.pow_le_pow_right (by decide) hp))

theorem mulOutcome_result (ha : 0 ≤ s32 a) (hb : 0 ≤ s32 b) : (mulOutcome a b).result = a * b := by
  rw [mulOutcome, negativeOperand_eq_false ha hb, ← mulScan_eq_mul]
  rfl

/-- The last running sum is the product of the multiplicand and all multiplier bits (R162). -/
theorem lastTv3_mulTrace : lastTv3 (mulTrace a b) = a * b := by
  obtain ⟨n, hn⟩ : ∃ n, mulLength b = n + 1 :=
    Nat.exists_eq_add_one.2 (lt_max_of_lt_left (show 0 < Config.mulPad by decide))
  rw [mulTrace_eq_map_range, ← runningProduct_of_lt a b (u32_lt_two_pow_mulLength b), hn, List.range_succ]
  simp [lastTv3, mulEntry, runningProduct]

/-- The contributions of the bits below `n` add up to the running product (R162). -/
theorem sumTv2_mulEntries {n : Nat} (h : n ≤ 32) :
    sumTv2 ((List.range n).map (mulEntry (u32 a) (u32 b))) = runningProduct a b n := by
  induction n with
  | zero => simp [sumTv2]
  | succ n ih =>
    have hlow : List.foldl (fun acc e => add32 acc e.tv2) 0 ((List.range n).map (mulEntry (u32 a) (u32 b))) =
        runningProduct a b n := ih (by omega)
    rw [List.range_succ, List.map_append, sumTv2, List.foldl_append, hlow, List.map_singleton,
      mulEntry_eq_entryOf a b (by omega)]
    exact add32_contribution a b (by omega)

/-- An entry contributes when its multiplier bit is set (R161). -/
theorem mulTrace_contributing_length :
    ((mulTrace a b).filter TraceEntry.outField).length = ((List.range (mulLength b)).filter (bitAt b)).length := by
  rw [mulTrace_eq_map_range, List.filter_map, List.length_map]
  congr 1
  refine List.filter_congr fun k hk => ?_
  have hlt : k < 32 := (List.mem_range.1 hk).trans_le (mulLength_le b)
  rw [Function.comp_apply, mulEntry_eq_entryOf a b hlt, entryOf_outField]

/-- All set bits of the multiplier are below the trace's length (R162). -/
theorem popCount_eq_length_below_mulLength :
    popCount b = ((List.range (mulLength b)).filter (bitAt b)).length := by
  obtain ⟨m, hm⟩ := Nat.exists_eq_add_of_le (mulLength_le b)
  have habove : ((List.range m).map (mulLength b + ·)).filter (bitAt b) = [] := by
    rw [List.filter_eq_nil_iff]
    intro p hp
    obtain ⟨i, -, rfl⟩ := List.mem_map.1 hp
    simp [bitAt_of_mulLength_le b (Nat.le_add_right _ i)]
  change ((List.range 32).filter (bitAt b)).length = _
  rw [hm, List.range_add, List.filter_append, habove, List.append_nil]

end

/-- Settles O7: the scan gives the wrapped product, and `N` fits the field LEN. -/
theorem mulCompletes : Obligations.MulCompletes := by
  refine ⟨decode_encode .mul, fun s => ⟨fun ha hb => ⟨_, exec_eq_complete .mul s, ?supported⟩,
    fun hneg => ⟨_, exec_eq_complete .mul s, ?unsupported⟩⟩⟩
  case supported =>
    have hproduct : wrap32 (s32 s.latA * s32 s.latB) = mulScan s.latA s.latB 32 0 0 := by
      rw [wrap32_mul, wrap32_s32, wrap32_s32, mulScan_eq_mul]
    rw [outcomeOf, mulOutcome, negativeOperand_eq_false ha hb, hproduct]
    exact complete_completesNormally s _ _ (by decide)
      (by rw [mulTrace_length]; exact (mulLength_le _).trans_lt (by decide))
  case unsupported =>
    rw [outcomeOf, mulOutcome, if_pos ((negativeOperand_eq_true_iff _ _).2 hneg)]
    exact complete_completesUnsupported s 2

/-- Settles O8: the entries in the order of the multiplier bits, all of them within the 32 bits of the shifter. -/
theorem mulTraceIsShiftAndAdd : Obligations.MulTraceIsShiftAndAdd := by
  refine fun a b => ⟨mulTrace_length a b, fun k hk => ?_⟩
  have hlt : k < mulLength b := hk
  rw [mulTrace_eq_map_range, List.getElem?_map, List.getElem?_range hlt, Option.map_some]

/-- Settles O9: the trace takes in every set bit of the multiplier. -/
theorem mulReplayGivesResult : Obligations.MulReplayGivesResult := by
  intro a b ha hb
  have hsum : sumTv2 (mulTrace a b) = a * b := by
    rw [mulTrace_eq_map_range, sumTv2_mulEntries a b (mulLength_le b),
      runningProduct_of_lt a b (u32_lt_two_pow_mulLength b)]
  rw [mulOutcome_result a b ha hb, mulTrace_contributing_length, popCount_eq_length_below_mulLength, mulTrace_length]
  exact ⟨lastTv3_mulTrace a b, hsum, rfl, fun p hp => bitAt_of_mulLength_le b hp⟩

end Sys2Proof.Machine
end

section
/-! DIV (R163 to R165). The result comes from a loop of shifted subtractions, the trace from long division; both give
the quotient and the remainder of the patterns. -/

namespace Sys2Proof.Machine

/-- The shift of R163 is the largest one: the next larger multiple of the divisor is above the remainder. -/
theorem largestShift_spec {b r k0 : Nat} (hle : b ≤ r) (hlt : r < b * 2 ^ (k0 + 1)) :
    b * 2 ^ largestShift b r k0 ≤ r ∧ r < b * 2 ^ (largestShift b r k0 + 1) := by
  induction k0 with
  | zero => exact ⟨by simpa [largestShift] using hle, hlt⟩
  | succ k ih =>
    rw [largestShift]
    split
    case isTrue hfits => exact ⟨hfits, hlt⟩
    case isFalse hfits => exact ih (Nat.lt_of_not_le hfits)

/-- A subtraction of R163 leaves less than the largest multiple `b * 2^n` that could still fit. -/
theorem sub_largestShift_lt {b n r : Nat} (hle : b ≤ r) (hn : n ≤ 30) (hr : r < b * 2 ^ (n + 1)) :
    b * 2 ^ largestShift b r 30 ≤ r ∧ r - b * 2 ^ largestShift b r 30 < b * 2 ^ n := by
  have hreach : r < b * 2 ^ (30 + 1) :=
    hr.trans_le (Nat.mul_le_mul_left b (Nat.pow_le_pow_right (by decide) (Nat.succ_le_succ hn)))
  obtain ⟨hfits, hmax⟩ := largestShift_spec hle hreach
  generalize largestShift b r 30 = k at hfits hmax ⊢
  have hpow : 2 ^ k < 2 ^ (n + 1) := Nat.lt_of_mul_lt_mul_left (hfits.trans_lt hr)
  have hk : k ≤ n := Nat.lt_succ_iff.1 ((Nat.pow_lt_pow_iff_right (by decide)).1 hpow)
  have hbelow : b * 2 ^ k ≤ b * 2 ^ n := Nat.mul_le_mul_left b (Nat.pow_le_pow_right (by decide) hk)
  rw [pow_succ, ← mul_assoc] at hmax
  exact ⟨hfits, by omega⟩

/-- `n` subtractions are enough for a remainder below `b * 2^n` (R163). -/
theorem divLoop_eq_mod_div {b n r : Nat} (q : Nat) (hb : 0 < b) (hn : n ≤ 31) (hr : r < b * 2 ^ n) :
    divLoop b n r q = (r % b, q + r / b) := by
  induction n generalizing r q with
  | zero =>
    have hlt : r < b := by simpa using hr
    rw [divLoop, Nat.mod_eq_of_lt hlt, Nat.div_eq_of_lt hlt, Nat.add_zero]
  | succ n ih =>
    rw [divLoop]
    split
    case isTrue hle =>
      obtain ⟨hfits, hleft⟩ := sub_largestShift_lt hle (by omega) hr
      have hquotient : 2 ^ largestShift b r 30 ≤ r / b := (Nat.le_div_iff_mul_le hb).2 (by rwa [mul_comm])
      rw [ih _ (by omega) hleft, Nat.sub_mul_mod hfits, Nat.sub_mul_div, Nat.add_assoc, Nat.add_sub_cancel' hquotient]
    case isFalse hgt =>
      have hlt : r < b := Nat.lt_of_not_le hgt
      rw [Nat.mod_eq_of_lt hlt, Nat.div_eq_of_lt hlt, Nat.add_zero]

/-- The bits from `p` up are the bits above `p` with bit `p` appended. -/
theorem div_two_pow_eq (n p : Nat) : n / 2 ^ p = 2 * (n / 2 ^ (p + 1)) + natBit n p := by
  rw [natBit, pow_succ, ← Nat.div_div_eq_div_mul, Nat.div_add_mod]

/-- A brought-down remainder is at most the dividend. -/
theorem broughtDown_le (a b p : Nat) : broughtDown a b p ≤ a :=
  calc broughtDown a b p ≤ 2 * (a / 2 ^ (p + 1)) + natBit a p :=
        Nat.add_le_add_right (Nat.mul_le_mul_left 2 (Nat.mod_le _ b)) _
    _ = a / 2 ^ p := (div_two_pow_eq a p).symm
    _ ≤ a := Nat.div_le_self a _

/-- One step of long division (R164): the brought-down remainder holds the divisor once or not at all. -/
theorem longDivision_step {a b : Nat} (hb : 0 < b) (p : Nat) :
    a / 2 ^ p / b = 2 * (a / 2 ^ (p + 1) / b) + bitNat (decide (b ≤ broughtDown a b p)) ∧
      a / 2 ^ p % b = if b ≤ broughtDown a b p then broughtDown a b p - b else broughtDown a b p := by
  have hbit : natBit a p < 2 := Nat.mod_lt _ (by decide)
  have hrem := Nat.mod_lt (a / 2 ^ (p + 1)) hb
  have hdivision := Nat.mod_add_div (a / 2 ^ (p + 1)) b
  have hbrought : broughtDown a b p + b * (2 * (a / 2 ^ (p + 1) / b)) = a / 2 ^ p := by
    rw [div_two_pow_eq a p, broughtDown]
    linear_combination 2 * hdivision
  have hbound : broughtDown a b p < 2 * b := by
    rw [broughtDown]
    omega
  rw [Nat.div_mod_unique hb, ← hbrought]
  split
  case isTrue hfits =>
    rw [decide_eq_true hfits, bitNat, if_pos rfl, mul_add]
    omega
  case isFalse hfits =>
    rw [decide_eq_false hfits]
    exact ⟨rfl, Nat.lt_of_not_le hfits⟩

/-- A bit appended below a word (R164). -/
theorem shl32_one_or_boolWord (n : Nat) (x : Bool) :
    shl32 (wrap32 n) 1 ||| boolWord x = wrap32 (2 * n + bitNat x : Nat) := by
  have hdisjoint : shl32 (wrap32 n) 1 &&& boolWord x = 0 := by
    ext i hi
    cases i <;> simp [shl32, boolWord]
  have hbit : boolWord x = wrap32 (bitNat x) := by cases x <;> rfl
  rw [← BitVec.add_eq_or_of_and_eq_zero _ _ hdisjoint, shl32_one, hbit, ← wrap32_add, ← wrap32_add, two_mul,
    Nat.cast_add, Nat.cast_add]

/-- The remainder after the dividend bits from `p` up. -/
def partialRemainder (a b : Word) (p : Nat) : Word := wrap32 (u32 a / 2 ^ p % u32 b : Nat)

/-- The quotient after the dividend bits from `p` up. -/
def partialQuotient (a b : Word) (p : Nat) : Word := wrap32 (u32 a / 2 ^ p / u32 b : Nat)

/-- The brought-down remainder at dividend bit `p`, TV1 of its entry. -/
def broughtDownWord (a b : Word) (p : Nat) : Word := wrap32 (broughtDown (u32 a) (u32 b) p : Nat)

/-- The divisor fits in the brought-down remainder at dividend bit `p`. -/
def divisorFits (a b : Word) (p : Nat) : Bool := decide (u32 b ≤ broughtDown (u32 a) (u32 b) p)

/-- The next dividend bit is brought down below the remainder (R164). -/
theorem shl32_partialRemainder (a b : Word) (p : Nat) :
    shl32 (partialRemainder a b (p + 1)) 1 ||| boolWord (bitAt a p) = broughtDownWord a b p := by
  rw [partialRemainder, shl32_one_or_boolWord, bitNat_bitAt]
  rfl

/-- The entry of dividend bit `p` by its fields (R164). -/
theorem divEntry_eq_entryOf (a b : Word) {p : Nat} (hp : p < 64) : divEntry (u32 a) (u32 b) p =
    entryOf { kind := .divBit, pos := BitVec.ofNat 6 p, a := bitAt a p, out := divisorFits a b p,
              test := divisorFits a b p }
      (broughtDownWord a b p) (partialRemainder a b p) (partialQuotient a b p) := by
  have hpos : (BitVec.ofNat 6 p).toNat = p := Nat.mod_eq_of_lt hp
  rw [entryOf, Control.word_eq_controlWord, hpos, bitNat_bitAt]
  rfl

section
variable {a b : Word} (hb : 0 < s32 b)
include hb

/-- The comparison gives the next quotient bit (R164). -/
theorem shl32_partialQuotient (p : Nat) :
    shl32 (partialQuotient a b (p + 1)) 1 ||| boolWord (divisorFits a b p) = partialQuotient a b p := by
  obtain ⟨hpos, -⟩ := (s32_pos_iff b).1 hb
  obtain ⟨hquotient, -⟩ := longDivision_step (a := u32 a) hpos p
  rw [partialQuotient, shl32_one_or_boolWord, divisorFits, ← hquotient]
  rfl

/-- What a step leaves of the brought-down remainder (R164). -/
theorem subtract_broughtDownWord (p : Nat) :
    (if divisorFits a b p then sub32 (broughtDownWord a b p) b else broughtDownWord a b p) =
      partialRemainder a b p := by
  obtain ⟨hpos, -⟩ := (s32_pos_iff b).1 hb
  obtain ⟨-, hremainder⟩ := longDivision_step (a := u32 a) hpos p
  rw [partialRemainder, hremainder, divisorFits]
  by_cases hfits : u32 b ≤ broughtDown (u32 a) (u32 b) p
  · rw [decide_eq_true hfits, if_pos rfl, if_pos hfits, Nat.cast_sub hfits, sub_eq_add_neg, wrap32_add, wrap32_neg,
      wrap32_u32, sub32_eq_sub, BitVec.sub_eq_add_neg]
    rfl
  · rw [decide_eq_false hfits, if_neg Bool.false_ne_true, if_neg hfits]
    rfl

variable (ha : 0 ≤ s32 a)
include ha

/-- The signed comparison of R164 is that of the numbers: the brought-down remainder is at most the dividend. -/
theorem signed_compare_broughtDownWord (p : Nat) :
    decide (s32 b ≤ s32 (broughtDownWord a b p)) = divisorFits a b p := by
  have hsmall : broughtDown (u32 a) (u32 b) p < 2 ^ 31 :=
    (broughtDown_le _ _ p).trans_lt ((s32_nonneg_iff a).1 ha)
  rw [broughtDownWord, s32_wrap32_of_lt hsmall, s32_eq_u32 hb.le, divisorFits]
  exact decide_eq_decide.2 Nat.cast_le

/-- The loop of R164 from dividend bit `n-1` down, as soon as the bits from `n` up are divided. -/
theorem divSteps_eq_map_reverse {n : Nat} (hn : n ≤ 64) :
    divSteps a b n (partialRemainder a b n) (partialQuotient a b n) =
      (List.range n).reverse.map (divEntry (u32 a) (u32 b)) := by
  induction n with
  | zero => rfl
  | succ p ih =>
    rw [divSteps]
    simp only [shl32_partialRemainder, signed_compare_broughtDownWord hb ha, subtract_broughtDownWord hb,
      shl32_partialQuotient hb]
    rw [ih (by omega), List.range_succ, List.reverse_append, List.reverse_singleton, List.map_append,
      List.map_singleton, divEntry_eq_entryOf a b (by omega), List.singleton_append]

/-- The long division starts above the highest bit of the dividend, with nothing brought down. -/
theorem divTrace_eq_map_reverse :
    divTrace a b = (List.range (bitLength a)).reverse.map (divEntry (u32 a) (u32 b)) := by
  have htop : u32 a / 2 ^ bitLength a = 0 := Nat.div_eq_of_lt (u32_lt_two_pow_bitLength a)
  have hremainder : partialRemainder a b (bitLength a) = 0 := by simp [partialRemainder, htop, wrap32]
  have hquotient : partialQuotient a b (bitLength a) = 0 := by simp [partialQuotient, htop, wrap32]
  rw [← divSteps_eq_map_reverse hb ha ((bitLength_le a).trans (by decide)), hremainder, hquotient]
  rfl

/-- The last entry of the DIV trace is that of dividend bit 0 (R165). -/
theorem divTrace_getLast? : (divTrace a b).getLast? = some (divEntry (u32 a) (u32 b) 0) := by
  rw [divTrace_eq_map_reverse hb ha, List.map_reverse, List.getLast?_reverse, List.head?_map, List.head?_range,
    if_neg (Nat.one_le_iff_ne_zero.1 (bitLength_range a).1)]
  rfl

/-- A dividend below `2^31` needs at most 31 subtractions (R163). -/
theorem divResult_eq_mod_div : divResult a b = (u32 a % u32 b, u32 a / u32 b) := by
  obtain ⟨hpos, -⟩ := (s32_pos_iff b).1 hb
  have hreach : u32 a < u32 b * 2 ^ 31 :=
    ((s32_nonneg_iff a).1 ha).trans_le (Nat.le_mul_of_pos_left _ hpos)
  rw [divResult, divLoop_eq_mod_div 0 hpos le_rfl hreach, Nat.zero_add]

/-- The outcome of DIV on the supported domain (R163). -/
theorem divOutcome_of_supported : divOutcome a b =
    normalOutcome (wrap32 (u32 a / u32 b : Nat)) (wrap32 (u32 a % u32 b : Nat)) (bitLength a) (divTrace a b) := by
  have hne : b ≠ 0 := fun h => hb.ne' ((s32_eq_zero_iff b).2 h)
  rw [divOutcome, if_neg hne, negativeOperand_eq_false ha hb.le, divResult_eq_mod_div hb ha]
  rfl

end

theorem divTrace_length (a b : Word) : (divTrace a b).length = bitLength a := divSteps_length a b _ 0 0

/-- Settles O10: the checks in the order of R251, then the loop of subtractions. -/
theorem divCompletes : Obligations.DivCompletes := by
  refine ⟨decode_encode .div, fun s => ⟨fun hzero => ⟨_, exec_eq_complete .div s, ?byZero⟩,
    fun hne hneg => ⟨_, exec_eq_complete .div s, ?unsupported⟩,
    fun ha hb => ⟨_, exec_eq_complete .div s, ?supported⟩⟩⟩
  case byZero =>
    rw [outcomeOf, divOutcome, if_pos ((s32_eq_zero_iff _).1 hzero)]
    exact complete_completesWithError s .divisionByZero
  case unsupported =>
    rw [outcomeOf, divOutcome, if_neg (mt (s32_eq_zero_iff _).2 hne), if_pos ((negativeOperand_eq_true_iff _ _).2 hneg)]
    exact complete_completesUnsupported s 3
  case supported =>
    have hlt : bitLength s.latA < 64 := (bitLength_le _).trans_lt (by decide)
    rw [← Int.emod_def, s32_eq_u32 ha, s32_eq_u32 hb.le, ← Int.natCast_div, ← Int.natCast_emod, outcomeOf,
      divOutcome_of_supported hb ha]
    exact complete_completesNormally s _ _ hlt (by rwa [divTrace_length])

/-- Settles O11: entry `N-1-p` of the entries from the highest dividend bit down is that of bit `p`. -/
theorem divTraceIsLongDivision : Obligations.DivTraceIsLongDivision := by
  refine fun a b ha hb => ⟨divTrace_length a b, fun p hp => ?_⟩
  have hindex : bitLength a - 1 - (bitLength a - 1 - p) = p := by omega
  rw [divTrace_eq_map_reverse hb ha, List.getElem?_map, List.getElem?_reverse (by rw [List.length_range]; omega),
    List.length_range, hindex, List.getElem?_range hp, Option.map_some]

/-- Settles O12: at dividend bit 0 the quotient and the remainder are those of the whole dividend. -/
theorem divReplayGivesBothResults : Obligations.DivReplayGivesBothResults := by
  intro a b ha hb
  rw [lastTv3, lastTv2, divTrace_getLast? hb ha, divOutcome_of_supported hb ha]
  simp [divEntry, normalOutcome]

end Sys2Proof.Machine
end

section
/-! AND and OR (R190 to R193). Both write the same trace up to the kind and the truth table, so the trace is described
once for any truth table `f`, most-significant position first. -/

namespace Sys2Proof.Machine

/-- The 6-bit fields POS, PADW and LEN can hold `W` of the pair traces (R32, R34). -/
theorem pairWidth_lt (a b : Word) : pairWidth a b < 64 := (pairWidth_le a b).trans_lt (by decide)

/-- No operand has a bit at or above `W` (R192). -/
theorem u32_lt_two_pow_pairWidth (a b : Word) : u32 a < 2 ^ pairWidth a b ∧ u32 b < 2 ^ pairWidth a b :=
  ⟨(u32_lt_two_pow_bitLength a).trans_le (Nat.pow_le_pow_right (by decide) (le_max_left _ _)),
    (u32_lt_two_pow_bitLength b).trans_le (Nat.pow_le_pow_right (by decide) (le_max_right _ _))⟩

/-- The entry of position `p` of a trace with the truth table `f`. -/
def bitEntry (kind : Kind) (f : Bool → Bool → Bool) (a b : Word) (p : Nat) : TraceEntry :=
  entryOf { kind := kind, pos := BitVec.ofNat 6 p, a := bitAt a p, b := bitAt b p, out := f (bitAt a p) (bitAt b p) }

/-- The entries of the positions below `n`, most-significant first. -/
def bitTrace (kind : Kind) (f : Bool → Bool → Bool) (a b : Word) (n : Nat) : List TraceEntry :=
  (List.range n).reverse.map (bitEntry kind f a b)

section
variable (kind : Kind) (f : Bool → Bool → Bool) (a b : Word)

theorem bitTrace_succ (n : Nat) :
    bitTrace kind f a b (n + 1) = bitEntry kind f a b n :: bitTrace kind f a b n := by
  simp [bitTrace, List.range_succ]

/-- Entry `n-1-p` holds position `p` (R192). -/
theorem bitTrace_getElem? {n p : Nat} (hp : p < n) :
    (bitTrace kind f a b n)[n - 1 - p]? = some (bitEntry kind f a b p) := by
  have hindex : n - 1 - (n - 1 - p) = p := by omega
  rw [bitTrace, List.getElem?_map, List.getElem?_reverse (by rw [List.length_range]; omega), List.length_range,
    hindex, List.getElem?_range hp, Option.map_some]

/-- An entry by the bit places of R34. -/
theorem bitEntry_eq_controlWord {p : Nat} (hp : p < 64) : bitEntry kind f a b p =
    { tw0 := controlWord kind.code.toNat p (natBit (u32 a) p) (natBit (u32 b) p) 0
        (bitNat (f (bitAt a p) (bitAt b p))) 0 0 0,
      tv1 := 0, tv2 := 0, tv3 := 0 } := by
  have hpos : (BitVec.ofNat 6 p).toNat = p := Nat.mod_eq_of_lt hp
  rw [bitEntry, entryOf, Control.word_eq_controlWord, hpos, bitNat_bitAt, bitNat_bitAt]
  rfl

variable {a b} {r : Word} (hr : ∀ p, bitAt r p = f (bitAt a p) (bitAt b p))
include hr

/-- The output bits of the low `n` positions are the low bits of the word whose bits the truth table gives. -/
theorem outSum_bitTrace {n : Nat} (hn : n ≤ 64) : outSum (bitTrace kind f a b n) = u32 r % 2 ^ n := by
  induction n with
  | zero => simp [bitTrace, Nat.mod_one]
  | succ n ih =>
    have hpos : (BitVec.ofNat 6 n).toNat = n := Nat.mod_eq_of_lt hn
    rw [bitTrace_succ, outSum_cons, ih (by omega), bitEntry, entryOf_posField, entryOf_outField, hpos, ← hr,
      u32_mod_pow_succ, Nat.add_comm]

/-- A trace that reaches past every bit of the result replays to it (R193). -/
theorem replayBits_bitTrace {n : Nat} (hn : n ≤ 64) (hlt : u32 r < 2 ^ n) :
    replayBits (bitTrace kind f a b n) = r := by
  rw [replayBits, outSum_bitTrace kind f hr hn, Nat.mod_eq_of_lt hlt, wrap32_u32]

end

theorem andSteps_eq_bitTrace (a b : Word) (n : Nat) : andSteps a b n = bitTrace .andBit and a b n := by
  induction n with
  | zero => rfl
  | succ n ih => rw [bitTrace_succ, andSteps, ih]; rfl

theorem orSteps_eq_bitTrace (a b : Word) (n : Nat) : orSteps a b n = bitTrace .orBit or a b n := by
  induction n with
  | zero => rfl
  | succ n ih => rw [bitTrace_succ, orSteps, ih]; rfl

theorem bitAt_and (a b : Word) (p : Nat) : bitAt (a &&& b) p = (bitAt a p && bitAt b p) := BitVec.getLsbD_and

theorem bitAt_or (a b : Word) (p : Nat) : bitAt (a ||| b) p = (bitAt a p || bitAt b p) := BitVec.getLsbD_or

/-- The outputs of the two truth tables as numbers: the product and the maximum of the input bits. -/
theorem bitNat_and : ∀ x y : Bool, bitNat (x && y) = bitNat x * bitNat y := by decide

theorem bitNat_or : ∀ x y : Bool, bitNat (x || y) = max (bitNat x) (bitNat y) := by decide

theorem andOutcome_entries (a b : Word) :
    (andOutcome a b).entries = bitTrace .andBit and a b (pairWidth a b) := andSteps_eq_bitTrace a b _

theorem orOutcome_entries (a b : Word) :
    (orOutcome a b).entries = bitTrace .orBit or a b (pairWidth a b) := orSteps_eq_bitTrace a b _

/-- Settles O13: the results are the bitwise operations themselves, and PADW and LEN fit their fields. -/
theorem andOrCompleteWithBitwiseResult : Obligations.AndOrCompleteWithBitwiseResult := by
  refine ⟨decode_encode .and, decode_encode .or, fun s => ?_⟩
  have hw := pairWidth_lt s.latA s.latB
  exact ⟨⟨_, exec_eq_complete .and s, complete_completesNormally s _ _ hw (by rwa [andSteps_length])⟩,
    ⟨_, exec_eq_complete .or s, complete_completesNormally s _ _ hw (by rwa [orSteps_length])⟩⟩

/-- Settles O14: entry `W-1-p` holds position `p`, and `W` is within the reach of POS. -/
theorem andOrTracesAreTruthTables : Obligations.AndOrTracesAreTruthTables := by
  rintro a b w (rfl : w = pairWidth a b)
  refine ⟨andSteps_length a b _, orSteps_length a b _, fun p hp => ?_⟩
  have hreach : p < 64 := hp.trans (pairWidth_lt a b)
  constructor
  case left =>
    rw [andOutcome_entries, bitTrace_getElem? _ _ a b hp, bitEntry_eq_controlWord _ _ a b hreach, bitNat_and,
      bitNat_bitAt, bitNat_bitAt]
    rfl
  case right =>
    rw [orOutcome_entries, bitTrace_getElem? _ _ a b hp, bitEntry_eq_controlWord _ _ a b hreach, bitNat_or,
      bitNat_bitAt, bitNat_bitAt]
    rfl

/-- Settles O15: neither result has a bit at or above `W`, so the traces reach past all of their bits. -/
theorem andOrReplayGivesResult : Obligations.AndOrReplayGivesResult := by
  intro a b
  obtain ⟨ha, hb⟩ := u32_lt_two_pow_pairWidth a b
  have hw := (pairWidth_lt a b).le
  rw [andOutcome_entries, orOutcome_entries]
  constructor
  case left =>
    have hlt : u32 (a &&& b) < 2 ^ pairWidth a b := Nat.and_lt_two_pow _ hb
    exact replayBits_bitTrace .andBit and (bitAt_and a b) hw hlt
  case right =>
    have hlt : u32 (a ||| b) < 2 ^ pairWidth a b := Nat.or_lt_two_pow ha hb
    exact replayBits_bitTrace .orBit or (bitAt_or a b) hw hlt

end Sys2Proof.Machine
end

section
/-! EVEN, ISPOW2 and MODP2 (R194, R195, R199 to R202): the two readings of a pattern agree modulo every power of two,
and the detector of R116 is the check of ISPOW2 and of MODP2's modulus. -/

namespace Sys2Proof.Machine

/-- The signed and the unsigned reading of a pattern are congruent modulo every divisor of `2^32` (R6). -/
theorem s32_emod_of_dvd (v : Word) {n : Nat} (h : n ∣ 2 ^ 32) : s32 v % n = (u32 v % n : Nat) := by
  have hdvd : (n : Int) ∣ (2 ^ 32 : Nat) := Int.natCast_dvd_natCast.2 h
  rw [← Int.emod_emod_of_dvd (s32 v) hdvd, s32, BitVec.toInt_eq_toNat_bmod, Int.bmod_emod,
    Int.emod_emod_of_dvd _ hdvd, Int.natCast_emod, u32]

/-- A pattern that is not 0 loses 1 without a wrap. -/
theorem u32_sub_one {v : Word} (h : 0 < u32 v) : u32 (v - 1) = u32 v - 1 := by
  unfold u32 at *
  bv_omega

/-- A mask of the low `k` bits keeps the remainder by `2^k`. -/
theorem and_eq_wrap32_mod (v : Word) {m : Word} {k : Nat} (hm : u32 m = 2 ^ k - 1) :
    v &&& m = wrap32 (u32 v % 2 ^ k : Nat) := by
  have hand : u32 (v &&& m) = u32 v % 2 ^ k := by
    rw [← Nat.and_two_pow_sub_one_eq_mod, ← hm]
    exact BitVec.toNat_and v m
  rw [← hand, wrap32_u32]

/-- Bit 0 alone, as TV3 of the EVEN trace gives it (R195). -/
theorem and_one_eq_wrap32 (a : Word) : a &&& 1 = wrap32 (u32 a % 2 : Nat) := and_eq_wrap32_mod a (k := 1) rfl

/-- Bit 0 as a number. -/
theorem bitNat_bitAt_zero (a : Word) : bitNat (bitAt a 0) = u32 a % 2 := by
  rw [bitNat_bitAt, natBit, pow_zero, Nat.div_one]

/-- The parity test reads bit 0 (R194). -/
theorem isEven_eq_not_bitAt (a : Word) : isEven a = !bitAt a 0 := by
  have hbit : u32 (a &&& 1) = bitNat (bitAt a 0) := by
    rw [bitNat_bitAt_zero, and_one_eq_wrap32]
    exact u32_wrap32_of_lt (by omega)
  have hzero : a &&& 1 = 0 ↔ bitNat (bitAt a 0) = 0 := by
    rw [← hbit]
    exact BitVec.toNat_eq
  rw [Bool.eq_iff_iff, isEven, decide_eq_true_iff, hzero]
  cases bitAt a 0 <;> decide

/-- The parity test on the signed number, which has the parity of its pattern (R194). -/
theorem isEven_iff_emod_two (a : Word) : isEven a = true ↔ s32 a % 2 = 0 := by
  have hmod : s32 a % 2 = (u32 a % 2 : Nat) := s32_emod_of_dvd a (n := 2) (by decide)
  rw [isEven_eq_not_bitAt, hmod, ← bitNat_bitAt_zero]
  cases bitAt a 0 <;> decide

theorem boolWord_eq_ite (x : Bool) : boolWord x = if x then 1 else 0 := by cases x <;> rfl

theorem boolWord_toNat (x : Bool) : (boolWord x).toNat = bitNat x := by cases x <;> rfl

theorem bitNat_not : ∀ x : Bool, bitNat (!x) = 1 - bitNat x := by decide

/-- The one entry of the EVEN trace by the bit places of R34 (R195). -/
theorem evenTrace_eq (a : Word) : evenTrace a =
    [{ tw0 := controlWord 6 0 (natBit (u32 a) 0) 0 0 (1 - natBit (u32 a) 0) 0 0 0,
       tv1 := a, tv2 := 1, tv3 := wrap32 (u32 a % 2 : Nat) }] := by
  rw [evenTrace, entryOf, Control.word_eq_controlWord, isEven_eq_not_bitAt, bitNat_not, bitNat_bitAt,
    and_one_eq_wrap32]
  rfl

/-- Settles O16: bit 0 is the parity of the signed number, and OUT of the one entry is RESULT. -/
theorem evenCompletesWithParity : Obligations.EvenCompletesWithParity := by
  refine ⟨decode_encode .even, fun s => ⟨_, exec_eq_complete .even s, ?completes, ?replays⟩⟩
  case completes =>
    have hresult : (if s32 s.latA % 2 = 0 then 1 else 0) = boolWord (isEven s.latA) := by
      rw [boolWord_eq_ite]
      simp only [isEven_iff_emod_two]
    rw [hresult, ← evenTrace_eq]
    exact complete_completesNormally s _ _ ((bitLength_le _).trans_lt (by decide)) (by simp [evenTrace])
  case replays =>
    simp [lastOut, outcomeOf, evenOutcome, normalOutcome, evenTrace]

/-- The detector on the unsigned number: the patterns `2^0` to `2^30` (R116). -/
theorem isp2_iff (v : Word) : isp2 v = true ↔ ∃ k, k ≤ 30 ∧ u32 v = 2 ^ k := by
  rw [powerOfTwoDetector v]
  refine exists_congr fun k => and_congr_right fun hk => ?_
  have hlt : 2 ^ k < 2 ^ 32 := Nat.pow_lt_pow_right (by decide) (by omega)
  constructor
  · rintro rfl
    exact u32_wrap32_of_lt hlt
  · intro hu
    rw [← hu, wrap32_u32]

/-- The two entries of the ISPOW2 trace by the bit places of R34 (R200). -/
theorem ispowTrace_eq (a : Word) : ispowTrace a =
    [{ tw0 := controlWord 9 0 0 0 0 0 0 (bitNat (decide (0 < s32 a))) 0, tv1 := a, tv2 := a - 1, tv3 := a &&& (a - 1) },
     { tw0 := controlWord 10 0 0 0 0 (boolWord (isp2 a)).toNat 0 0 0, tv1 := a, tv2 := 0, tv3 := 0 }] := by
  rw [ispowTrace, sub32_eq_sub, entryOf, entryOf, Control.word_eq_controlWord, Control.word_eq_controlWord,
    boolWord_toNat]
  rfl

/-- Settles O19: RESULT is the detector of R116, and OUT of entry 1 is RESULT. -/
theorem ispow2CompletesWithPowerTest : Obligations.Ispow2CompletesWithPowerTest := by
  refine ⟨decode_encode .ispow2, fun s => ⟨_, exec_eq_complete .ispow2 s, ?_⟩⟩
  have hresult : (complete s (outcomeOf .ispow2 s.latA s.latB)).result = boolWord (isp2 s.latA) := rfl
  rw [hresult]
  refine ⟨?bit, ?power, ?completes, ?replays⟩
  case bit => cases isp2 s.latA <;> decide
  case power =>
    rw [← isp2_iff]
    cases isp2 s.latA <;> decide
  case completes =>
    rw [← ispowTrace_eq]
    exact complete_completesNormally s _ _ ((bitLength_le _).trans_lt (by decide)) (by simp [ispowTrace])
  case replays =>
    simp [lastOut, ispow2Outcome, normalOutcome, ispowTrace]

/-- The two entries of the MODP2 trace by the bit places of R34 (R202). -/
theorem modpTrace_eq (a b : Word) : modpTrace a b =
    [{ tw0 := controlWord 11 0 0 0 0 0 0 1 0, tv1 := b, tv2 := b - 1, tv3 := 0 },
     { tw0 := controlWord 12 0 0 0 0 0 0 0 0, tv1 := a, tv2 := b - 1, tv3 := a &&& (b - 1) }] := by
  rw [modpTrace, sub32_eq_sub]
  rfl

/-- For a modulus `2^k` the mask `b - 1` takes the floored modulus, of negative dividends too (R201). -/
theorem and_sub32_one_eq_emod (a : Word) {b : Word} {k : Nat} (hk : k ≤ 30) (hb : u32 b = 2 ^ k) :
    a &&& sub32 b 1 = wrap32 (s32 a % s32 b) := by
  have hlt : 2 ^ k < 2 ^ 31 := Nat.pow_lt_pow_right (by decide) (by omega)
  have hpos : 0 < u32 b := hb ▸ Nat.two_pow_pos k
  have hmask : u32 (sub32 b 1) = 2 ^ k - 1 := by rw [sub32_eq_sub, u32_sub_one hpos, hb]
  rw [and_eq_wrap32_mod a hmask, s32_eq_u32 ((s32_nonneg_iff b).2 (hb ▸ hlt)), hb,
    s32_emod_of_dvd a (Nat.pow_dvd_pow 2 (by omega))]

/-- Settles O20: the detector lets exactly the moduli `2^0` to `2^30` pass, and the mask gives the modulus. -/
theorem modp2CompletesWithFlooredModulus : Obligations.Modp2CompletesWithFlooredModulus := by
  refine ⟨decode_encode .modp2, fun s => ⟨fun hpower => ⟨_, exec_eq_complete .modp2 s, ?modulus⟩,
    fun hother => ⟨_, exec_eq_complete .modp2 s, ?invalid⟩⟩⟩
  case modulus =>
    obtain ⟨k, hk, hb⟩ := hpower
    have houtcome : modp2Outcome s.latA s.latB = normalOutcome (s.latA &&& sub32 s.latB 1) 0
        (pairWidth s.latA s.latB) (modpTrace s.latA s.latB) := if_pos ((isp2_iff _).2 ⟨k, hk, hb⟩)
    rw [← and_sub32_one_eq_emod s.latA hk hb, ← modpTrace_eq, outcomeOf, houtcome]
    exact ⟨complete_completesNormally s _ _ (pairWidth_lt _ _) (by simp [modpTrace]), rfl⟩
  case invalid =>
    rw [outcomeOf, modp2Outcome, if_neg (mt (isp2_iff _).1 hother)]
    exact complete_completesWithError s .invalidDivisor

end Sys2Proof.Machine
end

section
/-! POPCNT (R196 to R198). Each iteration clears the lowest 1 bit of the working value, so as many iterations as there
are 1 bits end the loop; the result and the trace follow the same iterations. -/

namespace Sys2Proof.Machine

@[simp] theorem entryOf_kindField (c : Control) (v1 v2 v3 : Word) : (entryOf c v1 v2 v3).kindField = c.kind.code :=
  c.word_kind

@[simp] theorem entryOf_countField (c : Control) (v1 v2 v3 : Word) : (entryOf c v1 v2 v3).countField = c.count := by
  have hkind := c.kind.code.isLt
  have hpos := c.pos.isLt
  have hinputs := And.intro (bitNat_lt_two c.a) (And.intro (bitNat_lt_two c.b) (bitNat_lt_two c.cin))
  have houtputs := And.intro (bitNat_lt_two c.out) (And.intro (bitNat_lt_two c.cout) (bitNat_lt_two c.test))
  have hcount := c.count.isLt
  apply BitVec.eq_of_toNat_eq
  simp only [TraceEntry.countField, entryOf, BitVec.extractLsb'_toNat, Control.word_toNat, Nat.shiftRight_eq_div_pow]
  omega

/-- The number of 1 bits among the low `n` bits of a number. -/
def lowBitCount (n m : Nat) : Nat := ((List.range n).filter m.testBit).length

theorem popCount_eq_lowBitCount (v : Word) : popCount v = lowBitCount 32 (u32 v) := rfl

/-- Bit 0 and the 1 bits of the rest. -/
theorem lowBitCount_succ (n m : Nat) : lowBitCount (n + 1) m = m % 2 + lowBitCount n (m / 2) := by
  have hshift : m.testBit ∘ Nat.succ = (m / 2).testBit := funext fun i => Nat.testBit_succ m i
  have hrest : (((List.range n).map Nat.succ).filter m.testBit).length = lowBitCount n (m / 2) := by
    rw [List.filter_map, List.length_map, hshift, lowBitCount]
  rw [lowBitCount, List.range_succ_eq_map, List.filter_cons, Nat.testBit_zero]
  obtain hbit | hbit := Nat.mod_two_eq_zero_or_one m
  · simp [hbit, hrest]
  · simp [hbit, hrest, Nat.add_comm]

/-- `m & (m - 1)` has one 1 bit less (R196): of an odd number it clears bit 0, of an even one it is twice that of the
half. -/
theorem lowBitCount_and_sub_one {n m : Nat} (hpos : 0 < m) (hlt : m < 2 ^ n) :
    lowBitCount n (m &&& (m - 1)) + 1 = lowBitCount n m := by
  induction n generalizing m with
  | zero => omega
  | succ n ih =>
    have hlow : (m &&& (m - 1)) % 2 = m % 2 &&& (m - 1) % 2 := Nat.and_mod_two_pow (n := 1)
    rw [lowBitCount_succ, lowBitCount_succ, Nat.and_div_two, hlow]
    obtain heven | hodd := Nat.mod_two_eq_zero_or_one m
    · have hhalf : (m - 1) / 2 = m / 2 - 1 := by omega
      have hstep := ih (m := m / 2) (by omega) (by omega)
      simp [heven, hhalf, hstep]
    · have hhalf : (m - 1) / 2 = m / 2 := by omega
      have hclear : (m - 1) % 2 = 0 := by omega
      simp [hodd, hhalf, hclear, Nat.add_comm]

/-- One iteration of R196 on a working value that is not 0. -/
theorem popCount_and_sub_one {v : Word} (hv : v ≠ 0) : popCount (v &&& (v - 1)) + 1 = popCount v := by
  have hpos : 0 < u32 v := Nat.pos_of_ne_zero fun h => hv (BitVec.eq_of_toNat_eq h)
  have hand : u32 (v &&& (v - 1)) = u32 v &&& (u32 v - 1) := by
    rw [← u32_sub_one hpos]
    exact BitVec.toNat_and v (v - 1)
  rw [popCount_eq_lowBitCount, hand, lowBitCount_and_sub_one hpos v.isLt, popCount_eq_lowBitCount]

@[simp] theorem popCount_zero : popCount 0 = 0 := by decide

theorem popCount_eq_zero_iff (v : Word) : popCount v = 0 ↔ v = 0 := by
  constructor
  · intro h
    by_contra hv
    have := popCount_and_sub_one hv
    omega
  · rintro rfl
    exact popCount_zero

theorem popCount_le (v : Word) : popCount v ≤ 32 := List.length_filter_le _ _

section
variable (a : Word)

/-- After `i` iterations `i` of the 1 bits are cleared. -/
theorem popCount_popValue {i : Nat} (hi : i ≤ popCount a) : popCount (popValue a i) + i = popCount a := by
  induction i with
  | zero => rfl
  | succ i ih =>
    have hbefore := ih (by omega)
    have hne : popValue a i ≠ 0 := fun h => by
      rw [h, popCount_zero] at hbefore
      omega
    have hstep := popCount_and_sub_one hne
    rw [popValue]
    omega

/-- The loop of R196 ends after exactly as many iterations as the pattern has 1 bits. -/
theorem popValue_eq_zero_iff {i : Nat} (hi : i ≤ popCount a) : popValue a i = 0 ↔ i = popCount a := by
  have hcount := popCount_popValue a hi
  rw [← popCount_eq_zero_iff]
  omega

/-- The loop of R196 from iteration `i`, with enough iterations left. -/
theorem popLoop_popValue {n i : Nat} (hi : i ≤ popCount a) (hn : popCount a ≤ i + n) :
    popLoop n (popValue a i) i = popCount a := by
  induction n generalizing i with
  | zero => exact Nat.le_antisymm hi hn
  | succ n ih =>
    rw [popLoop, sub32_eq_sub]
    split
    case isTrue hzero => exact (popValue_eq_zero_iff a hi).1 hzero
    case isFalse hne =>
      have hmore : i ≠ popCount a := mt (popValue_eq_zero_iff a hi).2 hne
      exact ih (i := i + 1) (by omega) (by omega)

/-- The 6-bit field COUNT can hold every count (R34, R197). -/
theorem toNat_ofNat_of_le_popCount {i : Nat} (hi : i ≤ popCount a) : (BitVec.ofNat 6 i).toNat = i :=
  Nat.mod_eq_of_lt ((hi.trans (popCount_le a)).trans_lt (by decide))

/-- An iteration's entry by its fields (R197). -/
theorem popEntry_of_lt {i : Nat} (hi : i < popCount a) : popEntry a i =
    entryOf { kind := .popIter, count := BitVec.ofNat 6 (i + 1) } (popValue a i) (popValue a i - 1)
      (popValue a (i + 1)) := by
  rw [popEntry, if_pos hi, entryOf, Control.word_eq_controlWord, toNat_ofNat_of_le_popCount a hi]
  rfl

/-- The complete entry by its fields (R197). -/
theorem popEntry_popCount : popEntry a (popCount a) =
    entryOf { kind := .popDone, count := BitVec.ofNat 6 (popCount a) } a := by
  rw [popEntry, if_neg (lt_irrefl _), entryOf, Control.word_eq_controlWord, toNat_ofNat_of_le_popCount a le_rfl]
  rfl

/-- Entry 0 works on the pattern itself, also when it is the complete entry (R197). -/
theorem popEntry_zero_tv1 : (popEntry a 0).tv1 = a := by
  unfold popEntry
  split <;> rfl

/-- The loop of R197 from iteration `i`, with enough iterations left: `m` iterations, then the complete entry. -/
theorem popSteps_popValue {n m i : Nat} (hi : i + m = popCount a) (hn : m ≤ n) :
    popSteps a n (popValue a i) i = (List.range' i (m + 1)).map (popEntry a) := by
  induction m generalizing n i with
  | zero =>
    obtain rfl : i = popCount a := hi
    have hzero : popValue a (popCount a) = 0 := (popValue_eq_zero_iff a le_rfl).2 rfl
    rw [List.range'_one, List.map_singleton, popEntry_popCount, hzero]
    cases n <;> rfl
  | succ m ih =>
    obtain ⟨n, rfl⟩ := Nat.exists_eq_add_one.2 (Nat.zero_lt_of_lt hn)
    have hne : popValue a i ≠ 0 := mt (popValue_eq_zero_iff a (by omega)).1 (by omega)
    rw [popSteps, if_neg hne, sub32_eq_sub, List.range'_succ, List.map_cons, popEntry_of_lt a (by omega),
      ← ih (by omega) (Nat.le_of_succ_le_succ hn)]
    rfl

/-- The POPCNT trace in closed form (R197). -/
theorem popcntOutcome_entries :
    (popcntOutcome a).entries = (List.range (popCount a + 1)).map (popEntry a) := by
  rw [List.range_eq_range', ← popSteps_popValue a (Nat.zero_add _) (popCount_le a)]
  rfl

theorem popcntOutcome_result : (popcntOutcome a).result = wrap32 (popCount a) := by
  have hloop : popLoop 32 a 0 = popCount a :=
    popLoop_popValue a (Nat.zero_le _) ((popCount_le a).trans_eq (Nat.zero_add 32).symm)
  rw [popcntOutcome, hloop]
  rfl

theorem popcntOutcome_entries_length : (popcntOutcome a).entries.length = popCount a + 1 := by
  rw [popcntOutcome_entries, List.length_map, List.length_range]

/-- Every entry of the trace is the one of its index. -/
theorem popcntOutcome_getElem? {i : Nat} {e : TraceEntry} (h : (popcntOutcome a).entries[i]? = some e) :
    i ≤ popCount a ∧ e = popEntry a i := by
  obtain ⟨hlt, -⟩ := List.getElem?_eq_some_iff.1 h
  rw [popcntOutcome_entries_length] at hlt
  rw [popcntOutcome_entries, List.getElem?_map, List.getElem?_range hlt, Option.map_some, Option.some_inj] at h
  exact ⟨Nat.le_of_lt_succ hlt, h.symm⟩

/-- The last entry is the complete entry. -/
theorem popcntOutcome_getLast? : (popcntOutcome a).entries.getLast? = some (popEntry a (popCount a)) := by
  rw [popcntOutcome_entries, List.range_succ, List.map_append, List.map_singleton, List.getLast?_concat]

end

/-- Settles O17: the loop runs once for each 1 bit, which 32 iterations are enough for. -/
theorem popcntCompletesWithBitCount : Obligations.PopcntCompletesWithBitCount := by
  refine ⟨decode_encode .popcnt, fun s => ⟨_, exec_eq_complete .popcnt s, ?_⟩⟩
  have hlen : (popcntOutcome s.latA).entries.length < 64 := by
    rw [popcntOutcome_entries_length]
    exact (Nat.succ_le_succ (popCount_le _)).trans_lt (by decide)
  rw [← popcntOutcome_result, ← popcntOutcome_entries]
  exact complete_completesNormally s _ _ ((bitLength_le _).trans_lt (by decide)) hlen

/-- TV3 of an iteration is what the next iteration works on, and 0 when the next entry is the complete one (R198). -/
theorem popEntry_tv3_chains (a : Word) {i : Nat} (hi : i < popCount a) :
    ((popEntry a (i + 1)).kindField = 7 → (popEntry a i).tv3 = (popEntry a (i + 1)).tv1) ∧
      ((popEntry a (i + 1)).kindField = 8 → (popEntry a i).tv3 = 0) := by
  have htv3 : (popEntry a i).tv3 = popValue a (i + 1) := by rw [popEntry_of_lt a hi]; rfl
  rw [htv3]
  obtain hlast | hmore := Nat.eq_or_lt_of_le (Nat.succ_le_of_lt hi)
  · have hzero : popValue a (i + 1) = 0 := (popValue_eq_zero_iff a hi).2 hlast
    have hkind : (popEntry a (i + 1)).kindField = 8 := by
      rw [show i + 1 = popCount a from hlast, popEntry_popCount, entryOf_kindField]
      rfl
    simp [hkind, hzero]
  · have hkind : (popEntry a (i + 1)).kindField = 7 := by
      rw [popEntry_of_lt a hmore, entryOf_kindField]
      rfl
    have htv1 : (popEntry a (i + 1)).tv1 = popValue a (i + 1) := by rw [popEntry_of_lt a hmore]; rfl
    simp [hkind, htv1]

/-- Settles O18: the complete entry stands last with the count, and each iteration's TV3 is the next working value. -/
theorem popcntReplayGivesResult : Obligations.PopcntReplayGivesResult := by
  rintro a _ rfl
  rw [popcntOutcome_result]
  refine ⟨?count, ?length, fun i e f he hf _ => ?chain, fun _ e he => ?first⟩
  case count =>
    rw [lastCount, popcntOutcome_getLast?, popEntry_popCount]
    have hword : u32 (wrap32 (popCount a)) = popCount a := u32_wrap32_of_lt ((popCount_le a).trans_lt (by decide))
    apply BitVec.eq_of_toNat_eq
    rw [Option.map_some, Option.getD_some, entryOf_countField, BitVec.toNat_setWidth_of_le (by decide),
      toNat_ofNat_of_le_popCount a le_rfl]
    exact hword.symm
  case length =>
    rw [popcntOutcome_entries_length, Nat.cast_succ, Int.add_sub_cancel]
  case chain =>
    obtain ⟨-, rfl⟩ := popcntOutcome_getElem? a he
    obtain ⟨hi, rfl⟩ := popcntOutcome_getElem? a hf
    exact popEntry_tv3_chains a hi
  case first =>
    obtain ⟨-, rfl⟩ := popcntOutcome_getElem? a he
    exact popEntry_zero_tv1 a

end Sys2Proof.Machine
end

section
/-! Binary64 patterns (R230): the fields of a packed pattern, and the value of a finite pattern as a number of units of
`2^-1074`, the spacing of the subnormals. -/

namespace Sys2Proof.Machine

/-- `(-1)^sign`. -/
def signFactor (sign : Bool) : Rat := if sign then -1 else 1

theorem signFactor_true : signFactor true = -1 := rfl

theorem signFactor_false : signFactor false = 1 := rfl

@[simp] theorem signFactor_xor (s t : Bool) : signFactor (s ^^ t) = signFactor s * signFactor t := by
  cases s <;> cases t <;> simp [signFactor]

@[simp] theorem signFactor_mul_self (s : Bool) : signFactor s * signFactor s = 1 := by
  cases s <;> simp [signFactor]

@[simp] theorem abs_signFactor (s : Bool) : |signFactor s| = 1 := by
  cases s <;> simp [signFactor]

@[simp] theorem div_signFactor (v : Rat) (s : Bool) : v / signFactor s = v * signFactor s := by
  cases s <;> simp [signFactor, div_neg]

section
variable (s : Bool) {n : Nat}

theorem withSign_toNat (hn : n < 2 ^ 63) : (withSign s n).toNat = bitNat s * 2 ^ 63 + n := by
  rw [withSign, toNat_append_eq_add, toNat_ofBool_eq_bitNat, BitVec.toNat_ofNat, Nat.mod_eq_of_lt hn]

@[simp] theorem signField_withSign (n : Nat) : signField (withSign s n) = s := by
  rw [signField, withSign, BitVec.getLsbD_append, if_neg (by decide), BitVec.getLsbD_ofBool]
  rfl

theorem expField_withSign (hn : n < 2 ^ 63) : expField (withSign s n) = n / 2 ^ 52 := by
  have hsign := bitNat_lt_two s
  rw [expField, BitVec.extractLsb'_toNat, withSign_toNat s hn, Nat.shiftRight_eq_div_pow]
  omega

theorem fracField_withSign (hn : n < 2 ^ 63) : fracField (withSign s n) = n % 2 ^ 52 := by
  have hsign := bitNat_lt_two s
  rw [fracField, BitVec.extractLsb'_toNat, withSign_toNat s hn, Nat.shiftRight_eq_div_pow]
  omega

/-- Bit 0 is the parity of the magnitude bits. -/
theorem withSign_getLsbD_zero (hn : n < 2 ^ 63) (heven : Even n) : (withSign s n).getLsbD 0 = false := by
  have hmod := Nat.even_iff.1 heven
  rw [← BitVec.testBit_toNat, withSign_toNat s hn, Nat.testBit_zero, decide_eq_false_iff_not]
  omega

theorem isFinite_withSign (hn : n < infinityBits) : isFinite (withSign s n) = true := by
  rw [infinityBits] at hn
  rw [isFinite, expField_withSign s (by omega), decide_eq_true_iff]
  omega

/-- The fields of an infinity (R230). -/
theorem withSign_infinityBits :
    expField (withSign s infinityBits) = 2047 ∧ fracField (withSign s infinityBits) = 0 := by
  rw [expField_withSign s (by decide), fracField_withSign s (by decide)]
  decide

end

theorem isFinite_iff (x : F64) : isFinite x = true ↔ expField x < 2047 := decide_eq_true_iff

theorem fracField_lt (x : F64) : fracField x < 2 ^ 52 := BitVec.isLt _

theorem expField_le (x : F64) : expField x ≤ 2047 := Nat.le_of_lt_succ (BitVec.isLt (x.extractLsb' 52 11))

theorem isNan_iff (x : F64) : isNan x = true ↔ expField x = 2047 ∧ fracField x ≠ 0 := by simp [isNan]

/-- A pattern that is no NaN is finite or has the fields of an infinity (R230). -/
theorem isNan_eq_false_iff (x : F64) :
    isNan x = false ↔ isFinite x = true ∨ expField x = 2047 ∧ fracField x = 0 := by
  have hexp := expField_le x
  rw [← Bool.not_eq_true, isNan_iff, isFinite_iff]
  omega

theorem isNan_eq_false_of_isFinite {x : F64} (h : isFinite x = true) : isNan x = false :=
  (isNan_eq_false_iff x).2 (.inl h)

theorem fvalue_of_infinite {x : F64} (hexp : expField x = 2047) (hfrac : fracField x = 0) :
    fvalue x = .infinite (signField x) := by
  rw [fvalue, if_pos hexp, if_pos hfrac]

/-- A finite pattern is a signed zero, or a signed `m * 2^e` with a significand of at most 53 bits (R230). -/
theorem fvalue_of_isFinite {x : F64} (h : isFinite x = true) :
    (fvalue x = .zero (signField x) ∧ f64Value x = 0) ∨
      ∃ m e, fvalue x = .finite (signField x) m e ∧ 0 < m ∧ m < 2 ^ 53 ∧
        f64Value x = signFactor (signField x) * (m * 2 ^ e) := by
  have hfrac := fracField_lt x
  have hexp : expField x ≠ 2047 := ((isFinite_iff x).1 h).ne
  have hread (m : Nat) (e : Int) (hx : fvalue x = .finite (signField x) m e) :
      f64Value x = signFactor (signField x) * (m * 2 ^ e) := by
    simp only [f64Value, hx, signFactor, mul_assoc]
  by_cases hzero : expField x = 0
  · by_cases hfrac0 : fracField x = 0
    · have hx : fvalue x = .zero (signField x) := by rw [fvalue, if_neg hexp, if_pos hzero, if_pos hfrac0]
      exact .inl ⟨hx, by simp only [f64Value, hx]⟩
    · have hx : fvalue x = .finite (signField x) (fracField x) (-1074) := by
        rw [fvalue, if_neg hexp, if_pos hzero, if_neg hfrac0]
      exact .inr ⟨_, _, hx, Nat.pos_of_ne_zero hfrac0, by omega, hread _ _ hx⟩
  · have hx : fvalue x = .finite (signField x) (2 ^ 52 + fracField x) ((expField x : Int) - 1075) := by
      rw [fvalue, if_neg hexp, if_neg hzero]
    exact .inr ⟨_, _, hx, by omega, by omega, hread _ _ hx⟩

/-- A finite pattern whose value is not 0. -/
theorem fvalue_of_value_ne_zero {x : F64} (h : isFinite x = true) (hne : f64Value x ≠ 0) :
    ∃ m e, fvalue x = .finite (signField x) m e ∧ 0 < m ∧ m < 2 ^ 53 ∧
      f64Value x = signFactor (signField x) * (m * 2 ^ e) :=
  (fvalue_of_isFinite h).resolve_left fun hzero => hne hzero.2

/-- The unit in the last place of the finite patterns with biased exponent `k + 1`; `place 0` is also that of the
subnormals (R230). -/
def place (k : Nat) : Rat := 2 ^ k * 2 ^ (-1074 : Int)

theorem place_pos (k : Nat) : 0 < place k := by
  unfold place
  positivity

theorem place_mono {k l : Nat} (h : k ≤ l) : place k ≤ place l :=
  mul_le_mul_of_nonneg_right (pow_le_pow_right₀ one_le_two h) (by positivity)

theorem place_succ (k : Nat) : place (k + 1) = 2 * place k := by
  rw [place, place, pow_succ', mul_assoc]

theorem place_eq_zpow (k : Nat) : place k = 2 ^ ((k : Int) - 1074) := by
  rw [place, ← zpow_natCast, ← zpow_add₀ two_ne_zero, sub_eq_add_neg]

/-- The magnitude of a finite pattern in units of `2^-1074`. -/
def gridUnits (x : F64) : Nat :=
  if expField x = 0 then fracField x else (2 ^ 52 + fracField x) * 2 ^ (expField x - 1)

theorem f64Value_eq_gridUnits {x : F64} (h : isFinite x = true) :
    f64Value x = signFactor (signField x) * (gridUnits x * place 0) := by
  have hexp : expField x ≠ 2047 := ((isFinite_iff x).1 h).ne
  by_cases hzero : expField x = 0
  · by_cases hfrac : fracField x = 0 <;> simp [f64Value, fvalue, gridUnits, place, signFactor, hzero, hfrac]
  · obtain ⟨k, hk⟩ := Nat.exists_eq_add_one_of_ne_zero hzero
    have hpow : (2 : Rat) ^ ((expField x : Int) - 1075) = 2 ^ k * place 0 := by
      rw [place_eq_zpow, ← zpow_natCast, ← zpow_add₀ two_ne_zero, hk]
      congr 1
      omega
    simp only [f64Value, fvalue, if_neg hexp, if_neg hzero, gridUnits, hpow, signFactor, mul_assoc]
    rw [hk, Nat.add_sub_cancel, Nat.cast_mul, Nat.cast_pow, Nat.cast_two, mul_assoc]

/-- Either the magnitude is a multiple of the unit `place k`, or it lies below the smallest normal pattern with that
unit. -/
theorem dvd_gridUnits_or_lt (x : F64) (k : Nat) :
    2 ^ k ∣ gridUnits x ∨ 0 < k ∧ gridUnits x < 2 ^ 52 * 2 ^ k := by
  have hfrac := fracField_lt x
  obtain rfl | hk := Nat.eq_zero_or_pos k
  · exact .inl (one_dvd _)
  unfold gridUnits
  split
  · exact .inr ⟨hk, hfrac.trans_le (Nat.le_mul_of_pos_right _ (Nat.two_pow_pos k))⟩
  · obtain hlt | hle := Nat.lt_or_ge (expField x - 1) k
    · refine .inr ⟨hk, ?_⟩
      calc (2 ^ 52 + fracField x) * 2 ^ (expField x - 1)
          < 2 ^ 53 * 2 ^ (expField x - 1) := Nat.mul_lt_mul_of_pos_right (by omega) (Nat.two_pow_pos _)
        _ = 2 ^ 52 * 2 ^ (expField x - 1 + 1) := by ring
        _ ≤ 2 ^ 52 * 2 ^ k := Nat.mul_le_mul_left _ (Nat.pow_le_pow_right two_pos hlt)
    · exact .inl ((Nat.pow_dvd_pow 2 hle).mul_left _)

/-- Exponent and fraction add up (R230): a significand `n` above the exponent `k` has the value `n` in units of
`place k`, also when it is `2^53` and carries into the exponent. -/
theorem gridUnits_withSign (s : Bool) {k n : Nat} (hfin : k * 2 ^ 52 + n < infinityBits) (hn : n ≤ 2 ^ 53)
    (hnormal : 0 < k → 2 ^ 52 ≤ n) : gridUnits (withSign s (k * 2 ^ 52 + n)) = n * 2 ^ k := by
  rw [infinityBits] at hfin
  rw [gridUnits, expField_withSign s (by omega), fracField_withSign s (by omega)]
  obtain hlow | ⟨hmid, hlt⟩ | rfl : n < 2 ^ 52 ∨ (2 ^ 52 ≤ n ∧ n < 2 ^ 53) ∨ n = 2 ^ 53 := by omega
  · obtain rfl : k = 0 := by omega
    rw [if_pos (by omega)]
    omega
  · have hexp : (k * 2 ^ 52 + n) / 2 ^ 52 = k + 1 := by omega
    have hfrac : 2 ^ 52 + (k * 2 ^ 52 + n) % 2 ^ 52 = n := by omega
    rw [hexp, hfrac, if_neg (Nat.succ_ne_zero k), Nat.add_sub_cancel]
  · have hexp : (k * 2 ^ 52 + 2 ^ 53) / 2 ^ 52 = k + 2 := by omega
    have hfrac : 2 ^ 52 + (k * 2 ^ 52 + 2 ^ 53) % 2 ^ 52 = 2 ^ 52 := by omega
    rw [hexp, hfrac, if_neg (Nat.succ_ne_zero _), show k + 2 - 1 = k + 1 from rfl]
    ring

end Sys2Proof.Machine
end

section
/-! Rounding to nearest, ties to even (R230). A result is rounded on integers first: `NearestEven` says it of the
significand, `RoundsOnGrid` of a significand in units of its last place, and `RoundsTo` follows for the packed pattern,
because every finite pattern is a multiple of that unit or lies below the range that the unit serves. -/

namespace Sys2Proof.Machine

/-- `n` is the integer nearest to `x`, an even one at a tie. -/
def NearestEven (n : Nat) (x : Rat) : Prop := |(n : Rat) - x| ≤ 1 / 2 ∧ (|(n : Rat) - x| = 1 / 2 → Even n)

section
variable {n c : Nat} {x : Rat}

theorem nearestEven_self (n : Nat) : NearestEven n n := by simp [NearestEven]

section
variable {w : Rat} (hw : 0 < w)
include hw

/-- Strictly within half a unit `w` of `n` units there is no tie. -/
theorem nearestEven_div_of_lt (hlow : w * n - w / 2 < x) (hhigh : x < w * n + w / 2) : NearestEven n (x / w) := by
  have hdist : |(n : Rat) - x / w| < 1 / 2 := by
    rw [abs_lt, lt_sub_comm, sub_lt_comm, div_lt_iff₀ hw, lt_div_iff₀ hw]
    constructor <;> linarith
  exact ⟨hdist.le, fun htie => absurd htie hdist.ne⟩

/-- Half a unit `w` away from an even number of units. -/
theorem nearestEven_div_of_tie (heven : Even n) (hx : x = w * n + w / 2 ∨ x = w * n - w / 2) :
    NearestEven n (x / w) := by
  refine ⟨?_, fun _ => heven⟩
  rw [abs_le, le_sub_comm, sub_le_comm, div_le_iff₀ hw, le_div_iff₀ hw]
  obtain rfl | rfl := hx <;> constructor <;> linarith

end

theorem NearestEven.le_of_le (h : NearestEven n x) (hc : (c : Rat) ≤ x) : c ≤ n := by
  obtain ⟨hlow, -⟩ := abs_le.1 h.1
  by_contra! hlt
  have hstep : (n : Rat) + 1 ≤ c := mod_cast hlt
  linarith

theorem NearestEven.le_of_ge (h : NearestEven n x) (hc : x ≤ c) : n ≤ c := by
  obtain ⟨-, hhigh⟩ := abs_le.1 h.1
  by_contra! hlt
  have hstep : (c : Rat) + 1 ≤ n := mod_cast hlt
  linarith

/-- No integer is nearer, and another one that is as near means that `n` is even. -/
theorem NearestEven.abs_le (h : NearestEven n x) (j : Int) :
    |(n : Rat) - x| ≤ |(j : Rat) - x| ∧ (|(j : Rat) - x| = |(n : Rat) - x| → (j : Rat) = n ∨ Even n) := by
  obtain heq | hne := eq_or_ne j n
  · simp [heq]
  · have hgap : (1 : Rat) ≤ |(j : Rat) - n| := mod_cast Int.one_le_abs (sub_ne_zero.2 hne)
    have htriangle := abs_sub_le (j : Rat) x n
    rw [abs_sub_comm x] at htriangle
    refine ⟨by linarith [h.1], fun htie => .inr (h.2 ?_)⟩
    linarith [h.1]

end

/-- The integer `m` may be rounded in the place of `x`: it is `x`, or it is odd, as the sticky bit of `fdiv` makes it,
and `x` lies between its neighbours, which have at least 54 bits. -/
def StandsFor (m : Nat) (x : Rat) : Prop := x = m ∨ Odd m ∧ |x - m| < 1 ∧ 2 ^ 54 ≤ m

section
variable {m : Nat} {x : Rat}

theorem StandsFor.pos (h : StandsFor m x) (hx : 0 < x) : 0 < m := by
  obtain rfl | ⟨hodd, -, -⟩ := h
  · exact_mod_cast hx
  · exact hodd.pos

/-- `m` and `x` compare alike with every even number. -/
theorem StandsFor.compare (h : StandsFor m x) {c : Nat} (hc : x = m ∨ Even c) :
    ((c : Rat) < x ↔ c < m) ∧ (x < c ↔ m < c) := by
  obtain rfl | ⟨hodd, hnear, -⟩ := h
  · simp
  obtain ⟨hlow, hhigh⟩ := abs_lt.1 hnear
  obtain rfl | heven := hc
  · simp
  have hne : c ≠ m := fun heq => Nat.not_even_iff_odd.2 hodd (heq ▸ heven)
  have hup : (c : Rat) < x → c ≤ m := fun hlt => by
    have hcast : (c : Rat) < m + 1 := by linarith
    exact Nat.lt_succ_iff.1 (mod_cast hcast)
  have hdown : x < c → m ≤ c := fun hlt => by
    have hcast : (m : Rat) < c + 1 := by linarith
    exact Nat.lt_succ_iff.1 (mod_cast hcast)
  refine ⟨⟨fun hlt => (hup hlt).lt_of_ne hne, fun hlt => ?_⟩, ⟨fun hlt => (hdown hlt).lt_of_ne' hne, fun hlt => ?_⟩⟩
  · have hcast : (c : Rat) + 1 ≤ m := mod_cast hlt
    linarith
  · have hcast : (m : Rat) + 1 ≤ c := mod_cast hlt
    linarith

/-- A sticky bit stands below at least 54 other bits. -/
theorem StandsFor.eq_or_le_log2 (h : StandsFor m x) : x = m ∨ 54 ≤ Nat.log2 m :=
  h.imp_right fun hsticky => (Nat.le_log2 hsticky.1.pos.ne').2 hsticky.2.2

/-- `m` and `x` have the same leading bit. -/
theorem StandsFor.log2_range (h : StandsFor m x) (hm : 0 < m) :
    (2 : Rat) ^ Nat.log2 m ≤ x ∧ x < 2 ^ (Nat.log2 m + 1) := by
  have heven (l : Nat) (hl : Nat.log2 m ≤ l) : x = m ∨ Even (2 ^ l) :=
    h.eq_or_le_log2.imp_right fun hlong => Nat.even_pow.2 ⟨even_two, by omega⟩
  have hlow := (h.compare (heven _ le_rfl)).2.not.2 (Nat.log2_self_le hm.ne').not_gt
  have hhigh := (h.compare (heven _ (Nat.le_succ _))).2.2 Nat.lt_log2_self
  push_cast at hlow hhigh
  exact ⟨not_lt.1 hlow, hhigh⟩

/-- What `roundHalfEven` does with the quotient `n` and the remainder `r` of `m` by `2 * c`; a sticky bit must lie below
the bit `c` that decides a tie. -/
theorem nearestEven_of_split (h : StandsFor m x) {n r c : Nat} (hc : x = m ∨ Even c) (hsplit : 2 * c * n + r = m)
    (hr : r < 2 * c) :
    NearestEven (if 2 * r < 2 * c then n else if 2 * c < 2 * r then n + 1 else n + n % 2) (x / (2 * c)) := by
  have hpos : (0 : Rat) < 2 * c := mod_cast Nat.zero_lt_of_lt hr
  have hnext : 2 * c * (n + 1) = 2 * c * n + 2 * c := rfl
  have hfloor := (h.compare (c := 2 * c * n) (.inr (even_two.mul_right c |>.mul_right n))).2.not
  have hceil := (h.compare (c := 2 * c * (n + 1)) (.inr (even_two.mul_right c |>.mul_right (n + 1)))).2
  have hhalf := h.compare (c := 2 * c * n + c) (hc.imp_right (even_two.mul_right c |>.mul_right n).add)
  push_cast at hfloor hceil hhalf
  split
  case isTrue hbelow =>
    exact nearestEven_div_of_lt hpos (by linarith [not_lt.1 (hfloor.2 (by omega))]) (by linarith [hhalf.2.2 (by omega)])
  case isFalse hnotBelow =>
    split
    case isTrue habove =>
      refine nearestEven_div_of_lt hpos ?_ ?_ <;> push_cast
      · linarith [hhalf.1.2 (by omega)]
      · linarith [hceil.2 (by omega)]
    case isFalse hnotAbove =>
      have htie : x = 2 * c * n + c :=
        le_antisymm (not_lt.1 (hhalf.1.not.2 (by omega))) (not_lt.1 (hhalf.2.not.2 (by omega)))
      obtain hparity | hparity := Nat.mod_two_eq_zero_or_one n
      · exact nearestEven_div_of_tie hpos (Nat.even_iff.2 (by omega)) (.inl (by rw [hparity, htie]; push_cast; ring))
      · exact nearestEven_div_of_tie hpos (Nat.even_iff.2 (by omega)) (.inr (by rw [hparity, htie]; push_cast; ring))

/-- `roundHalfEven` rounds to nearest, ties to even (R230). -/
theorem nearestEven_roundHalfEven (h : StandsFor m x) {d : Nat} (hd : x = m ∨ Even (2 ^ d)) :
    NearestEven (roundHalfEven m (d + 1)) (x / 2 ^ (d + 1)) := by
  have hround := nearestEven_of_split h hd (Nat.div_add_mod m (2 * 2 ^ d)) (Nat.mod_lt m (by positivity))
  rw [roundHalfEven, pow_succ', pow_succ']
  exact_mod_cast hround

end

/-- `n` units of `place k` are the magnitude `v` rounded to nearest, ties to even, and `place k` is the unit that R230
gives a result near `v`. -/
structure RoundsOnGrid (k n : Nat) (v : Rat) : Prop where
  nonneg : 0 ≤ v
  normal : 0 < k → 2 ^ 52 * place k ≤ v
  below : v < 2 ^ 53 * place k
  nearest : NearestEven n (v / place k)

/-- The biased last place counts units above that of the subnormals. -/
theorem place_lastPlace (m : Nat) (e : Int) : place (lastPlace m e + 1074).toNat = 2 ^ lastPlace m e := by
  have hge : -1074 ≤ lastPlace m e := le_max_right _ _
  rw [place_eq_zpow]
  congr 1
  omega

/-- `significand` and `lastPlace` round `x * 2^e`, also when a sticky bit stands for the rest of `x`. -/
theorem roundsOnGrid_significand {m : Nat} {x : Rat} (h : StandsFor m x) (hm : 0 < m) (e : Int) :
    RoundsOnGrid (lastPlace m e + 1074).toNat (significand m e) (x * 2 ^ e) := by
  obtain ⟨hlow, hhigh⟩ := h.log2_range hm
  have hshift (i : Nat) : (2 : Rat) ^ i * 2 ^ e = 2 ^ ((i : Int) + e) := by
    rw [zpow_add₀ two_ne_zero, zpow_natCast]
  have hlast : lastPlace m e = max ((Nat.log2 m : Int) + e - 52) (-1074) := rfl
  have hx : 0 ≤ x := (by positivity : (0 : Rat) ≤ 2 ^ Nat.log2 m).trans hlow
  refine ⟨by positivity, fun hk => ?normal, ?below, ?nearest⟩ <;> rw [place_lastPlace]
  case normal =>
    calc (2 : Rat) ^ 52 * 2 ^ lastPlace m e = 2 ^ Nat.log2 m * 2 ^ e := by
          rw [hshift, ← zpow_natCast, ← zpow_add₀ two_ne_zero]
          congr 1
          push_cast
          omega
      _ ≤ x * 2 ^ e := mul_le_mul_of_nonneg_right hlow (by positivity)
  case below =>
    calc x * 2 ^ e < 2 ^ (Nat.log2 m + 1) * 2 ^ e := mul_lt_mul_of_pos_right hhigh (by positivity)
      _ = 2 ^ (((Nat.log2 m + 1 : Nat) : Int) + e) := hshift _
      _ ≤ 2 ^ ((53 : Nat) + lastPlace m e) := zpow_le_zpow_right₀ one_le_two (by push_cast; omega)
      _ = 2 ^ 53 * 2 ^ lastPlace m e := by rw [zpow_add₀ two_ne_zero, zpow_natCast]
  case nearest =>
    rw [mul_div_assoc, ← zpow_sub₀ two_ne_zero, significand]
    split
    case isTrue hle =>
      have hexact : x = m := h.eq_or_le_log2.resolve_right (by omega)
      obtain ⟨i, hi⟩ := Int.eq_ofNat_of_zero_le (sub_nonneg.2 hle)
      rw [hexact, hi, Int.toNat_natCast, zpow_natCast]
      exact_mod_cast nearestEven_self (m * 2 ^ i)
    case isFalse hgt =>
      obtain ⟨d, hd⟩ : ∃ d : Nat, lastPlace m e - e = d + 1 := ⟨(lastPlace m e - e - 1).toNat, by omega⟩
      have hround := nearestEven_roundHalfEven h (d := d) (h.eq_or_le_log2.imp_right fun hlong =>
        Nat.even_pow.2 ⟨even_two, by omega⟩)
      rwa [hd, ← neg_sub, hd, zpow_neg, ← div_eq_mul_inv, ← Nat.cast_succ, zpow_natCast, Int.toNat_natCast]

/-- The overflow threshold lies half a unit below `2^53` units of the largest finite patterns. -/
theorem overflow_eq : (2 : Rat) ^ 1024 - 2 ^ 970 = (2 ^ 53 - 1 / 2) * place 2045 := by
  have hplace : place 2045 = 2 * 2 ^ 970 := by
    rw [place_eq_zpow, show ((2045 : Nat) : Int) - 1074 = (971 : Nat) from rfl, zpow_natCast, ← pow_succ']
  rw [hplace, show 1024 = 54 + 970 from rfl, pow_add]
  generalize (2 : Rat) ^ 970 = unit
  ring

namespace RoundsOnGrid

variable {k n : Nat} {v : Rat}

theorem le_two_pow (h : RoundsOnGrid k n v) : n ≤ 2 ^ 53 :=
  h.nearest.le_of_ge (by push_cast; exact (div_lt_iff₀ (place_pos k)).2 h.below |>.le)

theorem two_pow_le (h : RoundsOnGrid k n v) (hk : 0 < k) : 2 ^ 52 ≤ n :=
  h.nearest.le_of_le (by push_cast; exact (le_div_iff₀ (place_pos k)).2 (h.normal hk))

/-- Rounding overflows exactly from the midpoint between the largest finite value and `2^1024` on (R230). -/
theorem lt_infinityBits_iff (h : RoundsOnGrid k n v) :
    k * 2 ^ 52 + n < infinityBits ↔ v < 2 ^ 1024 - 2 ^ 970 := by
  have htop := place_pos 2045
  have hn := h.le_two_pow
  rw [overflow_eq, infinityBits]
  obtain hlt | rfl | hgt := Nat.lt_trichotomy k 2045
  · have hplace : 2 * place k ≤ place 2045 := place_succ k ▸ place_mono hlt
    exact iff_of_true (by omega) (by linarith [h.below])
  · have hfinite : 2045 * 2 ^ 52 + n < 2047 * 2 ^ 52 ↔ n < 2 ^ 53 := by omega
    rw [hfinite, ← div_lt_iff₀ htop]
    obtain ⟨hnear, htie⟩ := h.nearest
    obtain ⟨hlow, hhigh⟩ := abs_le.1 hnear
    constructor
    · intro hlt
      have hcast : (n : Rat) + 1 ≤ 2 ^ 53 := mod_cast hlt
      refine lt_of_le_of_ne (by linarith) fun heq => ?_
      have hlast : n = 2 ^ 53 - 1 := by
        have : (2 : Rat) ^ 53 ≤ n + 1 := by linarith
        have : 2 ^ 53 ≤ n + 1 := mod_cast this
        omega
      have heven := htie (by rw [heq, hlast]; norm_num)
      exact absurd heven (hlast ▸ by decide)
    · intro hlt
      have hcast : (n : Rat) < 2 ^ 53 := by linarith
      exact_mod_cast hcast
  · have hplace : 2 * place 2045 ≤ place k := place_succ 2045 ▸ place_mono hgt
    have hnormal := h.normal (by omega)
    have := h.two_pow_le (by omega)
    exact iff_of_false (by omega) (by linarith)

/-- Among the multiples of the unit none is nearer, and a tie goes to the even one. -/
theorem abs_le_multiple (h : RoundsOnGrid k n v) (j : Int) :
    |n * place k - v| ≤ |j * place k - v| ∧
      (|j * place k - v| = |n * place k - v| → j * place k = n * place k ∨ Even n) := by
  have hpos := place_pos k
  have hscale (y : Rat) : |y * place k - v| = |y - v / place k| * place k := by
    rw [← abs_of_pos hpos, ← abs_mul, abs_of_pos hpos, sub_mul, div_mul_cancel₀ _ hpos.ne']
  obtain ⟨hle, htie⟩ := h.nearest.abs_le j
  rw [hscale, hscale]
  exact ⟨mul_le_mul_of_nonneg_right hle hpos.le, fun heq =>
    (htie (mul_right_cancel₀ hpos.ne' heq)).imp_left fun hj => by rw [hj]⟩

/-- No finite pattern is nearer: one that is no multiple of the unit is below the range that the unit serves. -/
theorem abs_le_finite (h : RoundsOnGrid k n v) (s : Bool) {z : F64} (hz : isFinite z = true) :
    |n * place k - v| ≤ |signFactor s * f64Value z - v| ∧
      (|signFactor s * f64Value z - v| = |n * place k - v| →
        signFactor s * f64Value z = n * place k ∨ Even n) := by
  have hpos := place_pos k
  have hunit : place k = 2 ^ k * place 0 := by simp [place]
  have hvalue : signFactor s * f64Value z = signFactor (s ^^ signField z) * (gridUnits z * place 0) := by
    rw [f64Value_eq_gridUnits hz, signFactor_xor, mul_assoc]
  obtain ⟨c, hc⟩ | ⟨hk, hlt⟩ := dvd_gridUnits_or_lt z k
  · obtain ⟨j, hj⟩ : ∃ j : Int, signFactor s * f64Value z = j * place k := by
      rw [hvalue, hc, hunit]
      cases s ^^ signField z
      · exact ⟨c, by push_cast [signFactor_false]; ring⟩
      · exact ⟨-c, by push_cast [signFactor_true]; ring⟩
    rw [hj]
    exact h.abs_le_multiple j
  · have hsmall : |signFactor s * f64Value z| < 2 ^ 52 * place k := by
      rw [hvalue, abs_mul, abs_signFactor, one_mul, abs_of_nonneg (mul_nonneg (Nat.cast_nonneg _) (place_pos 0).le),
        hunit, ← mul_assoc]
      exact mul_lt_mul_of_pos_right (mod_cast hlt) (place_pos 0)
    have hnear := (h.abs_le_multiple (2 ^ 52 : Nat)).1
    have hnormal := h.normal hk
    rw [Int.cast_natCast, Nat.cast_pow, Nat.cast_two] at hnear
    rw [abs_of_nonpos (by linarith : (2 : Rat) ^ 52 * place k - v ≤ 0)] at hnear
    obtain ⟨-, hhigh⟩ := abs_lt.1 hsmall
    rw [abs_of_neg (by linarith : signFactor s * f64Value z - v < 0)]
    exact ⟨by linarith, fun htie => absurd htie (by linarith)⟩

/-- The packed magnitude is finite with the rounded value. -/
theorem f64Value_withSign (h : RoundsOnGrid k n v) (s : Bool) (hfin : k * 2 ^ 52 + n < infinityBits) :
    f64Value (withSign s (k * 2 ^ 52 + n)) = signFactor s * (n * place k) := by
  rw [f64Value_eq_gridUnits (isFinite_withSign s hfin), signField_withSign,
    gridUnits_withSign s hfin h.le_two_pow h.two_pow_le]
  simp [place, mul_assoc]

/-- Packing rounds the signed value (R230). -/
theorem roundsTo (h : RoundsOnGrid k n v) (s : Bool) :
    RoundsTo (signFactor s * v) (withSign s (min (k * 2 ^ 52 + n) infinityBits)) := by
  have habs : |signFactor s * v| = v := by rw [abs_mul, abs_signFactor, one_mul, abs_of_nonneg h.nonneg]
  rw [RoundsTo, habs, ← h.lt_infinityBits_iff, ← not_lt, ← h.lt_infinityBits_iff]
  refine ⟨fun hfin => ?_, fun hinf => ?_⟩
  · rw [min_eq_left hfin.le]
    refine ⟨isFinite_withSign s hfin, fun z hz => ?_⟩
    have hdist (y : Rat) : |y - signFactor s * v| = |signFactor s * y - v| := by
      rw [← one_mul |y - _|, ← abs_signFactor s, ← abs_mul, mul_sub, ← mul_assoc, signFactor_mul_self, one_mul]
    obtain ⟨hle, htie⟩ := h.abs_le_finite s hz
    have hvalue := h.f64Value_withSign s hfin
    have hback : signFactor s * f64Value (withSign s (k * 2 ^ 52 + n)) = n * place k := by
      rw [hvalue, ← mul_assoc, signFactor_mul_self, one_mul]
    rw [hdist, hdist, hback]
    refine ⟨hle, fun heq => (htie heq).imp (fun hz => ?_) fun heven => ?_⟩
    · rw [hvalue, ← hz, ← mul_assoc, signFactor_mul_self, one_mul]
    · rw [infinityBits] at hfin
      exact withSign_getLsbD_zero s (by omega) (Even.add (Even.mul_left (by decide) k) heven)
  · rw [min_eq_right (not_lt.1 hinf)]
    exact withSign_infinityBits s

end RoundsOnGrid

/-- `roundPack` rounds `x * 2^e` with its sign, for every `x` that `m` stands for (R230). -/
theorem roundPack_roundsTo {m : Nat} {x : Rat} (h : StandsFor m x) (hm : 0 < m) (s : Bool) (e : Int) :
    RoundsTo (signFactor s * (x * 2 ^ e)) (roundPack s m e) :=
  (roundsOnGrid_significand h hm e).roundsTo s

@[simp] theorem signField_roundPack (s : Bool) (m : Nat) (e : Int) : signField (roundPack s m e) = s :=
  signField_withSign s _

/-- Both zeros are 0 rounded. -/
theorem roundsTo_zero (s : Bool) : RoundsTo 0 (withSign s 0) := by
  have hvalue : f64Value (withSign s 0) = 0 := by cases s <;> rfl
  have hpos : (0 : Rat) < 2 ^ 1024 - 2 ^ 970 :=
    sub_pos.2 (pow_lt_pow_right₀ one_lt_two (by decide))
  refine ⟨fun _ => ⟨isFinite_withSign s (by decide), fun z _ => ?_⟩, fun hover => ?_⟩
  · rw [hvalue]
    exact ⟨by simp, fun htie => .inl (by simpa using htie)⟩
  · rw [abs_zero] at hover
    exact absurd hover hpos.not_ge

end Sys2Proof.Machine
end

section
/-! `f64`, `fmul` and `fdiv` (R230): each packs once, so each rounds by `roundPack_roundsTo`; integers of at most 53
bits need no rounding. -/

namespace Sys2Proof.Machine

/-- `m` has a unit in the last place that divides it when it is at most `2^53`. -/
theorem exists_multiple_of_lastPlace {m : Nat} (hm : 0 < m) (hle : m ≤ 2 ^ 53) :
    ∃ j : Int, (j : Rat) * 2 ^ lastPlace m 0 = m := by
  have hlast : lastPlace m 0 = (Nat.log2 m : Int) - 52 := by
    rw [lastPlace]
    omega
  have hlog : Nat.log2 m ≤ 53 :=
    (Nat.pow_le_pow_iff_right (by decide)).1 ((Nat.log2_self_le hm.ne').trans hle)
  rw [hlast]
  obtain hlt | heq := Nat.lt_or_eq_of_le hlog
  · refine ⟨m * 2 ^ (52 - Nat.log2 m), ?_⟩
    push_cast
    rw [mul_assoc, ← zpow_natCast, ← zpow_add₀ two_ne_zero, Nat.cast_sub (by omega)]
    simp
  · obtain rfl : m = 2 ^ 53 := le_antisymm hle (heq ▸ Nat.log2_self_le hm.ne')
    refine ⟨2 ^ 52, ?_⟩
    rw [heq]
    norm_num

/-- Integers of at most 53 bits are exact (R230). -/
theorem f64OfInt_exact {i : Int} (hi : i.natAbs ≤ 2 ^ 53) :
    isFinite (f64OfInt i) = true ∧ f64Value (f64OfInt i) = i := by
  obtain rfl | hne := eq_or_ne i 0
  · exact ⟨by decide, by simpa using show f64Value (f64OfInt 0) = 0 from rfl⟩
  have hpos : 0 < i.natAbs := Int.natAbs_pos.2 hne
  have hround := roundsOnGrid_significand (.inl rfl : StandsFor i.natAbs i.natAbs) hpos 0
  rw [zpow_zero, mul_one] at hround
  obtain ⟨j, hj⟩ := exists_multiple_of_lastPlace hpos hi
  have hexact : (significand i.natAbs 0 : Rat) * place (lastPlace i.natAbs 0 + 1074).toNat = i.natAbs := by
    have hnear := (hround.abs_le_multiple j).1
    rw [place_lastPlace, hj, sub_self, abs_zero, ← place_lastPlace] at hnear
    exact sub_eq_zero.1 (abs_nonpos_iff.1 hnear)
  have hfin : (lastPlace i.natAbs 0 + 1074).toNat * 2 ^ 52 + significand i.natAbs 0 < infinityBits := by
    have hlog : Nat.log2 i.natAbs < 54 := (Nat.log2_lt hpos.ne').2 (hi.trans_lt (by decide))
    have hlast : lastPlace i.natAbs 0 ≤ 1 := by
      rw [lastPlace]
      omega
    have := hround.le_two_pow
    rw [infinityBits]
    omega
  rw [f64OfInt, if_neg hne, roundPack, magnitudeBits, min_eq_left hfin.le]
  refine ⟨isFinite_withSign _ hfin, ?_⟩
  rw [hround.f64Value_withSign _ hfin, hexact]
  obtain hneg | hnonneg := lt_or_ge i 0
  · rw [decide_eq_true hneg, signFactor_true, Nat.cast_natAbs, abs_of_neg hneg]
    simp
  · rw [decide_eq_false hnonneg.not_gt, signFactor_false, Nat.cast_natAbs, abs_of_nonneg hnonneg, one_mul]

theorem signField_f64OfInt (i : Int) : signField (f64OfInt i) = decide (i < 0) := by
  unfold f64OfInt
  split
  case isTrue hzero => simp [hzero]
  case isFalse => simp

theorem natAbs_s32_le (v : Word) : (s32 v).natAbs ≤ 2 ^ 31 := by
  have hlow := BitVec.le_toInt v
  have hhigh := BitVec.toInt_lt (x := v)
  rw [s32]
  omega

theorem f64OfInt_s32_exact (v : Word) :
    isFinite (f64OfInt (s32 v)) = true ∧ f64Value (f64OfInt (s32 v)) = s32 v :=
  f64OfInt_exact ((natAbs_s32_le v).trans (by decide))

/-- Settles O25: a 32-bit integer has at most 53 bits. -/
theorem integerToBinary64IsExact : Obligations.IntegerToBinary64IsExact := ⟨f64OfInt_s32_exact, by decide⟩

/-- The product of finite patterns is rounded once, with the exclusive-or of the signs (R230). -/
theorem fmul_of_isFinite {x y : F64} (hx : isFinite x = true) (hy : isFinite y = true) :
    RoundsTo (f64Value x * f64Value y) (fmul x y) ∧ signField (fmul x y) = (signField x ^^ signField y) := by
  obtain ⟨hx, hxv⟩ | ⟨mx, ex, hx, hmx, -, hxv⟩ := fvalue_of_isFinite hx <;>
    obtain ⟨hy, hyv⟩ | ⟨my, ey, hy, hmy, -, hyv⟩ := fvalue_of_isFinite hy
  case inr.inr =>
    have hvalue : f64Value x * f64Value y =
        signFactor (signField x ^^ signField y) * ((mx * my : Nat) * 2 ^ (ex + ey)) := by
      rw [hxv, hyv, signFactor_xor, zpow_add₀ two_ne_zero]
      push_cast
      ring
    simp only [fmul, hx, hy, signField_roundPack, and_true]
    rw [hvalue]
    exact roundPack_roundsTo (.inl rfl) (Nat.mul_pos hmx hmy) _ _
  all_goals
    simp only [fmul, hx, hy, hxv, hyv, mul_zero, zero_mul, signField_withSign, and_true]
    exact roundsTo_zero _

/-- Infinity times a pattern that is neither a zero nor a NaN is infinity, in either order (R230). -/
theorem fmul_of_infinite {x y : F64} (hexp : expField x = 2047) (hfrac : fracField x = 0) (hnan : isNan y = false)
    (hne : isFinite y = true → f64Value y ≠ 0) :
    fmul x y = withSign (signField x ^^ signField y) infinityBits ∧
      fmul y x = withSign (signField x ^^ signField y) infinityBits := by
  have hx := fvalue_of_infinite hexp hfrac
  rw [Bool.xor_comm]
  obtain hfin | ⟨hyexp, hyfrac⟩ := (isNan_eq_false_iff y).1 hnan
  · obtain ⟨m, e, hy, -⟩ := fvalue_of_value_ne_zero hfin (hne hfin)
    simp [fmul, hx, hy, Bool.xor_comm]
  · simp [fmul, hx, fvalue_of_infinite hyexp hyfrac, Bool.xor_comm]

/-- Settles O26: the integer product is exact and rounded once. -/
theorem multiplicationRoundsToNearestEven : Obligations.MultiplicationRoundsToNearestEven := by
  refine ⟨fun x y => fmul_of_isFinite, fun x y hexp hfrac hnan hne => ?_⟩
  obtain ⟨hxy, hyx⟩ := fmul_of_infinite hexp hfrac hnan hne
  obtain ⟨hrexp, hrfrac⟩ := withSign_infinityBits (signField x ^^ signField y)
  rw [hyx, hxy]
  exact ⟨hrexp, hrfrac, rfl, signField_withSign _ _⟩

/-- The quotient with its sticky bit may be rounded in the place of the exact one: it has at least 68 bits. -/
theorem stickyQuotient_standsFor {mx my : Nat} (hmx : 0 < mx) (hmy : 0 < my) (hlt : my < 2 ^ 53) :
    StandsFor (stickyQuotient mx my) (2 * (mx * 2 ^ 120 / my)) := by
  have hmy' : (0 : Rat) < my := mod_cast hmy
  have hdividend : (mx * 2 ^ 120 : Rat) = (mx * 2 ^ 120 : Nat) := by push_cast; rfl
  have hlong : 2 ^ 67 ≤ mx * 2 ^ 120 / my := by
    rw [Nat.le_div_iff_mul_le hmy]
    omega
  have hsplit := Nat.div_add_mod (mx * 2 ^ 120) my
  have hrest := Nat.mod_lt (mx * 2 ^ 120) hmy
  rw [hdividend, stickyQuotient]
  generalize mx * 2 ^ 120 = d at *
  have hcast : (d : Rat) = my * (d / my : Nat) + (d % my : Nat) := mod_cast hsplit.symm
  rw [hcast]
  generalize d / my = q at *
  generalize d % my = r at *
  split
  case isTrue hzero =>
    left
    rw [hzero, Nat.cast_zero, add_zero, mul_div_cancel_left₀ _ hmy'.ne']
    push_cast
    ring
  case isFalse hne =>
    right
    have hlow : (0 : Rat) < r := mod_cast Nat.pos_of_ne_zero hne
    have hhigh : (r : Rat) < my := mod_cast hrest
    refine ⟨odd_two_mul_add_one q, ?_, by omega⟩
    have hgap : 2 * ((my * q + r : Rat) / my) - (2 * q + 1 : Nat) = (2 * r - my) / my := by
      field_simp
      push_cast
      ring
    rw [hgap, abs_lt, lt_div_iff₀ hmy', div_lt_iff₀ hmy']
    constructor <;> linarith

/-- The quotient of finite patterns is rounded once, with the exclusive-or of the signs (R230, log entry 12). -/
theorem fdiv_of_isFinite {x y : F64} (hx : isFinite x = true) (hy : isFinite y = true) (hne : f64Value y ≠ 0) :
    RoundsTo (f64Value x / f64Value y) (fdiv x y) ∧ signField (fdiv x y) = (signField x ^^ signField y) := by
  obtain ⟨my, ey, hy, hmy, hmylt, hyv⟩ := fvalue_of_value_ne_zero hy hne
  obtain ⟨hx, hxv⟩ | ⟨mx, ex, hx, hmx, -, hxv⟩ := fvalue_of_isFinite hx
  · simp only [fdiv, hx, hy, hxv, zero_div, signField_withSign, and_true]
    exact roundsTo_zero _
  · have hvalue : f64Value x / f64Value y = signFactor (signField x ^^ signField y) *
        (2 * (mx * 2 ^ 120 / my) * 2 ^ (ex - ey - 121)) := by
      have hscale : (2 : Rat) * 2 ^ 120 = 2 ^ (121 : Int) := by norm_num
      rw [hxv, hyv, signFactor_xor, zpow_sub₀ two_ne_zero, zpow_sub₀ two_ne_zero, mul_div_mul_comm, div_signFactor,
        ← hscale]
      field_simp
    simp only [fdiv, hx, hy, signField_roundPack, and_true]
    rw [hvalue]
    have hsticky := stickyQuotient_standsFor hmx hmy hmylt
    exact roundPack_roundsTo hsticky (hsticky.pos (by positivity)) _ _

/-- Settles O27: the quotient's sticky bit decides rounding as the exact quotient does. -/
theorem divisionRoundsToNearestEven : Obligations.DivisionRoundsToNearestEven :=
  ⟨fun _ _ => fdiv_of_isFinite, by decide⟩

end Sys2Proof.Machine
end

section
/-! What rounding keeps (R230): the integers of at most 53 bits, the order with them, and so the magnitudes of at least
1 and those of at most 1, each closed under `fmul`. -/

namespace Sys2Proof.Machine

theorem fmul_one_one : fmul f64One f64One = f64One := by decide

theorem f64OfInt_one : f64OfInt 1 = f64One := by decide

theorem signField_one : signField f64One = false := by decide

theorem isFinite_one : isFinite f64One = true := by decide

theorem f64Value_one : f64Value f64One = 1 := by
  rw [← f64OfInt_one]
  exact_mod_cast (f64OfInt_exact (i := 1) (by decide)).2

/-- Integers of at most 53 bits lie below the overflow threshold. -/
theorem lt_overflow {v : Rat} (h : v ≤ 2 ^ 53) : v < 2 ^ 1024 - 2 ^ 970 := by
  have hunit : place 1075 ≤ place 2045 := place_mono (by decide)
  have htwo : place 1075 = 2 := by
    rw [place_eq_zpow]
    norm_num
  rw [overflow_eq]
  linarith

theorem RoundsTo.isNan_eq_false {v : Rat} {r : F64} (h : RoundsTo v r) : isNan r = false := by
  rw [isNan_eq_false_iff]
  exact (lt_or_ge |v| _).imp (fun hlt => (h.1 hlt).1) h.2

section
variable {v : Rat} {r : F64} {i : Int}

/-- An integer of at most 53 bits is a finite pattern, so a finite result is no farther from `v` than it. -/
theorem RoundsTo.abs_sub_le_int (h : RoundsTo v r) (hr : isFinite r = true) (hi : i.natAbs ≤ 2 ^ 53) :
    |f64Value r - v| ≤ |i - v| := by
  obtain ⟨hfin, hvalue⟩ := f64OfInt_exact hi
  have hlt : |v| < 2 ^ 1024 - 2 ^ 970 := by
    by_contra hover
    have hinf := (h.2 (not_lt.1 hover)).1
    have := (isFinite_iff r).1 hr
    omega
  rw [← hvalue]
  exact ((h.1 hlt).2 _ hfin).1

/-- An integer of at most 53 bits is rounded to itself. -/
theorem RoundsTo.eq_of_int (h : RoundsTo i r) (hi : i.natAbs ≤ 2 ^ 53) : isFinite r = true ∧ f64Value r = i := by
  have habs : |(i : Rat)| ≤ 2 ^ 53 := by
    rw [← Int.cast_abs, ← Nat.cast_natAbs]
    exact_mod_cast hi
  have hfin := (h.1 (lt_overflow habs)).1
  have hnear := h.abs_sub_le_int hfin hi
  rw [sub_self, abs_zero] at hnear
  exact ⟨hfin, sub_eq_zero.1 (abs_nonpos_iff.1 hnear)⟩

theorem RoundsTo.int_le (h : RoundsTo v r) (hr : isFinite r = true) (hi : i.natAbs ≤ 2 ^ 53) (hv : i ≤ v) :
    i ≤ f64Value r := by
  have hnear := h.abs_sub_le_int hr hi
  rw [abs_of_nonpos (sub_nonpos.2 hv)] at hnear
  linarith [neg_le_of_abs_le hnear]

theorem RoundsTo.le_int (h : RoundsTo v r) (hr : isFinite r = true) (hi : i.natAbs ≤ 2 ^ 53) (hv : v ≤ i) :
    f64Value r ≤ i := by
  have hnear := h.abs_sub_le_int hr hi
  rw [abs_of_nonneg (sub_nonneg.2 hv)] at hnear
  linarith [le_of_abs_le hnear]

end

/-- A finite pattern with an integer value. -/
def HoldsInt (x : F64) (i : Int) : Prop := isFinite x = true ∧ f64Value x = i

/-- Products of integers are exact while they have at most 53 bits. -/
theorem HoldsInt.fmul {x y : F64} {i j : Int} (hx : HoldsInt x i) (hy : HoldsInt y j)
    (hij : (i * j).natAbs ≤ 2 ^ 53) : HoldsInt (fmul x y) (i * j) := by
  have hround := (fmul_of_isFinite hx.1 hy.1).1
  rw [hx.2, hy.2, ← Int.cast_mul] at hround
  exact hround.eq_of_int hij

/-- A class of patterns that products do not leave and in which a product has the exclusive-or of the signs. -/
structure ClosedUnderFmul (C : F64 → Prop) : Prop where
  one_mem : C f64One
  mul_mem {x y : F64} : C x → C y → C (fmul x y)
  sign_mul {x y : F64} : C x → C y → signField (fmul x y) = (signField x ^^ signField y)

/-- Finite patterns of magnitude at most 1: the powers of the reciprocal of an integer, which may underflow. -/
def AtMostOne (x : F64) : Prop := isFinite x = true ∧ |f64Value x| ≤ 1

/-- Patterns of magnitude at least 1, infinities among them: the powers of an integer but 0, which may overflow. -/
def AtLeastOne (x : F64) : Prop := isNan x = false ∧ (isFinite x = true → 1 ≤ |f64Value x|)

section
variable {v : Rat} {r : F64}

theorem RoundsTo.atMostOne (h : RoundsTo v r) (hv : |v| ≤ 1) : AtMostOne r := by
  have hfin := (h.1 (lt_overflow (hv.trans (by norm_num)))).1
  have hdown := h.int_le hfin (i := -1) (by decide)
  have hup := h.le_int hfin (i := 1) (by decide)
  push_cast at hdown hup
  obtain ⟨hlow, hhigh⟩ := abs_le.1 hv
  exact ⟨hfin, abs_le.2 ⟨hdown hlow, hup hhigh⟩⟩

theorem RoundsTo.atLeastOne (h : RoundsTo v r) (hv : 1 ≤ |v|) : AtLeastOne r := by
  refine ⟨h.isNan_eq_false, fun hfin => ?_⟩
  have hup := h.int_le hfin (i := 1) (by decide)
  have hdown := h.le_int hfin (i := -1) (by decide)
  push_cast at hup hdown
  exact le_abs.2 ((le_abs.1 hv).imp hup fun hneg => le_neg.1 (hdown (le_neg.1 hneg)))

end

theorem atMostOne_closedUnderFmul : ClosedUnderFmul AtMostOne where
  one_mem := ⟨isFinite_one, by simp [f64Value_one]⟩
  mul_mem hx hy := (fmul_of_isFinite hx.1 hy.1).1.atMostOne (by
    rw [abs_mul]
    exact mul_le_one₀ hx.2 (abs_nonneg _) hy.2)
  sign_mul hx hy := (fmul_of_isFinite hx.1 hy.1).2

theorem AtLeastOne.value_ne_zero {x : F64} (h : AtLeastOne x) (hfin : isFinite x = true) : f64Value x ≠ 0 := by
  intro hzero
  have hle := h.2 hfin
  rw [hzero, abs_zero] at hle
  exact absurd hle (by norm_num)

theorem atLeastOne_infinite (s : Bool) : AtLeastOne (withSign s infinityBits) := by
  obtain ⟨hexp, hfrac⟩ := withSign_infinityBits s
  refine ⟨(isNan_eq_false_iff _).2 (.inr ⟨hexp, hfrac⟩), fun hfin => ?_⟩
  have := (isFinite_iff _).1 hfin
  omega

/-- Magnitudes of at least 1 multiply to such a magnitude: no zero meets an infinity. -/
theorem AtLeastOne.fmul {x y : F64} (hx : AtLeastOne x) (hy : AtLeastOne y) :
    AtLeastOne (fmul x y) ∧ signField (fmul x y) = (signField x ^^ signField y) := by
  obtain hxfin | ⟨hexp, hfrac⟩ := (isNan_eq_false_iff x).1 hx.1
  · obtain hyfin | ⟨hexp, hfrac⟩ := (isNan_eq_false_iff y).1 hy.1
    · obtain ⟨hround, hsign⟩ := fmul_of_isFinite hxfin hyfin
      refine ⟨hround.atLeastOne ?_, hsign⟩
      rw [abs_mul]
      exact one_le_mul_of_one_le_of_one_le (hx.2 hxfin) (hy.2 hyfin)
    · rw [(fmul_of_infinite hexp hfrac hx.1 hx.value_ne_zero).2, Bool.xor_comm]
      exact ⟨atLeastOne_infinite _, signField_withSign _ _⟩
  · rw [(fmul_of_infinite hexp hfrac hy.1 hy.value_ne_zero).1]
    exact ⟨atLeastOne_infinite _, signField_withSign _ _⟩

theorem atLeastOne_closedUnderFmul : ClosedUnderFmul AtLeastOne where
  one_mem := ⟨by decide, fun _ => by simp [f64Value_one]⟩
  mul_mem hx hy := (hx.fmul hy).1
  sign_mul hx hy := (hx.fmul hy).2

end Sys2Proof.Machine
end

section
/-! POW (R231 to R233). The loop over the exponent's bits is the recursion of R231, and what the recursion keeps follows
from what one multiplication keeps. -/

namespace Sys2Proof.Machine

section
variable (base : F64) (n : Nat)

@[simp] theorem powRec_zero_right : powRec base n 0 = f64One := by
  cases n <;> rfl

/-- The recursion of R231 without its special case, which `1.0 * 1.0 = 1.0` makes superfluous. -/
theorem powRec_succ (m : Nat) : powRec base (n + 1) m =
    if m % 2 = 1 then fmul (fmul (powRec base n (m / 2)) (powRec base n (m / 2))) base
    else fmul (powRec base n (m / 2)) (powRec base n (m / 2)) := by
  obtain rfl | hne := eq_or_ne m 0
  · simp [fmul_one_one]
  · rw [powRec, if_neg hne]

end

/-- The loop of R231 continues the recursion: with the bits below `i` left it turns the power by the bits from `i` up
into the power by all bits. -/
theorem powLoop_powRec (base : F64) (e : Word) (k i : Nat) :
    powLoop base e i (powRec base k (u32 e / 2 ^ i)) = powRec base (k + i) (u32 e) := by
  induction i generalizing k with
  | zero => rw [powLoop, pow_zero, Nat.div_one, Nat.add_zero]
  | succ i ih =>
    have hbit : bitAt e i = true ↔ u32 e / 2 ^ i % 2 = 1 := by
      rw [bitAt, ← BitVec.testBit_toNat, Nat.testBit_eq_decide_div_mod_eq, decide_eq_true_iff, u32]
    have hhalf : u32 e / 2 ^ (i + 1) = u32 e / 2 ^ i / 2 := by rw [pow_succ, Nat.div_div_eq_div_mul]
    rw [powLoop, hhalf, ← Nat.succ_add_eq_add_succ, ← ih (k + 1), powRec_succ]
    simp only [hbit]

theorem u32_powExponent (b : Word) : u32 (powExponent b) = (s32 b).natAbs := by
  have hle := natAbs_s32_le b
  unfold powExponent
  split
  case isTrue hneg =>
    rw [← Int.ofNat_natAbs_of_nonpos hneg.le]
    exact u32_wrap32_of_lt (by omega)
  case isFalse hnonneg =>
    have := s32_eq_u32 (not_lt.1 hnonneg)
    omega

/-- The result of POW is the recursion of R231 on the exponent's magnitude. -/
theorem powBits_eq_powRec (a b : Word) : powBits a b = powRec (powBase a b) 32 (s32 b).natAbs := by
  have hstart : powRec (powBase a b) 0 (u32 (powExponent b) / 2 ^ 32) = f64One := rfl
  rw [powBits, ← hstart, powLoop_powRec, u32_powExponent, Nat.zero_add]

/-- Settles O21: the loop is the recursion, and POW writes no trace. -/
theorem powCompletesWithSquaringRecursion : Obligations.PowCompletesWithSquaringRecursion := by
  refine ⟨decode_encode .pow, fun s v hv => ⟨_, exec_eq_complete .pow s, ?_⟩⟩
  obtain rfl : v = powBits s.latA s.latB := hv.trans (powBits_eq_powRec s.latA s.latB).symm
  exact complete_completesNormally s _ _ (by decide) (by decide)

theorem natAbs_s32_lt (b : Word) : (s32 b).natAbs < 2 ^ 32 := (natAbs_s32_le b).trans_lt (by decide)

/-- A base that is its own square and that `1.0` leaves unchanged is each of its powers but the one by 0. -/
theorem powRec_of_idempotent {base : F64} (hsquare : fmul base base = base) (hone : fmul f64One base = base) {n m : Nat}
    (hpos : 0 < m) (hm : m < 2 ^ n) : powRec base n m = base := by
  induction n generalizing m with
  | zero => omega
  | succ n ih =>
    rw [powRec_succ]
    obtain hhalf | hhalf := Nat.eq_zero_or_pos (m / 2)
    · obtain rfl : m = 1 := by omega
      simp [fmul_one_one, hone]
    · rw [ih hhalf (by omega), hsquare, hsquare, ite_self]

theorem powBits_of_idempotent {a b : Word} (hne : s32 b ≠ 0) (hsquare : fmul (powBase a b) (powBase a b) = powBase a b)
    (hone : fmul f64One (powBase a b) = powBase a b) : powBits a b = powBase a b := by
  rw [powBits_eq_powRec]
  exact powRec_of_idempotent hsquare hone (Int.natAbs_pos.2 hne) (natAbs_s32_lt b)

theorem powBase_of_nonneg (a : Word) {b : Word} (hb : 0 ≤ s32 b) : powBase a b = f64OfInt (s32 a) :=
  if_neg hb.not_gt

theorem powBase_of_neg (a : Word) {b : Word} (hb : s32 b < 0) : powBase a b = fdiv f64One (f64OfInt (s32 a)) :=
  if_pos hb

theorem powBits_zero_right (a : Word) : powBits a 0 = f64One := by
  rw [powBits_eq_powRec, show s32 0 = 0 from rfl, Int.natAbs_zero, powRec_zero_right]

theorem powBase_one (b : Word) : powBase 1 b = f64One := by
  unfold powBase
  split
  · decide
  · exact f64OfInt_one

/-- Settles O22: `+0`, `+infinity` and `1.0` are their own squares. -/
theorem powZeroAndOneCornerCases : Obligations.PowZeroAndOneCornerCases := by
  refine ⟨powBits_zero_right, fun b hb => ?zero, fun b hb => ?infinite, fun b => ?one⟩
  case zero =>
    have hbase : powBase 0 b = 0 := (powBase_of_nonneg 0 hb.le).trans (by decide)
    rw [powBits_of_idempotent hb.ne' (by rw [hbase]; decide) (by rw [hbase]; decide), hbase]
  case infinite =>
    have hbase : powBase 0 b = 0x7FF0000000000000 := (powBase_of_neg 0 hb).trans (by decide)
    rw [powBits_of_idempotent hb.ne (by rw [hbase]; decide) (by rw [hbase]; decide), hbase]
  case one =>
    obtain hzero | hne := eq_or_ne b 0
    · rw [hzero]
      exact powBits_zero_right 1
    · have hbase := powBase_one b
      have hne' := mt (s32_eq_zero_iff b).1 hne
      rw [powBits_of_idempotent hne' (by rw [hbase, fmul_one_one]) (by rw [hbase, fmul_one_one]), hbase]
      rfl

/-- The recursion of R231 is exact up to `2^53`: every product on its way divides the last one or is 0. -/
theorem powRec_holdsInt {a : Int} (ha : a.natAbs ≤ 2 ^ 53) {n m : Nat} (hm : m < 2 ^ n)
    (hpow : a.natAbs ^ m ≤ 2 ^ 53) : HoldsInt (powRec (f64OfInt a) n m) (a ^ m) := by
  induction n generalizing m with
  | zero =>
    obtain rfl : m = 0 := by omega
    exact ⟨isFinite_one, by simpa [powRec] using f64Value_one⟩
  | succ n ih =>
    have hsmaller {l : Nat} (hl : l ≤ m) : (a ^ l).natAbs ≤ 2 ^ 53 := by
      rw [Int.natAbs_pow]
      obtain hzero | hpos := Nat.eq_zero_or_pos a.natAbs
      · rw [hzero]
        exact (Nat.pow_le_pow_left zero_le_one l).trans (by rw [one_pow]; decide)
      · exact (Nat.pow_le_pow_right hpos hl).trans hpow
    have hhalf := ih (m := m / 2) (by omega) (by rw [← Int.natAbs_pow]; exact hsmaller (Nat.div_le_self m 2))
    have hsquare := hhalf.fmul hhalf (by rw [← pow_add]; exact hsmaller (by omega))
    rw [← pow_add] at hsquare
    rw [powRec_succ]
    split
    case isTrue hodd =>
      have hstep : a ^ (m / 2 + m / 2) * a = a ^ m := by
        rw [← pow_succ]
        congr 1
        omega
      rw [← hstep]
      exact hsquare.fmul (f64OfInt_exact ha) (by rw [hstep]; exact hsmaller le_rfl)
    case isFalse heven =>
      rwa [show m / 2 + m / 2 = m by omega] at hsquare

/-- Settles O24: the products of the recursion are integers of at most 53 bits. -/
theorem powExactUpToTwoToFiftyThree : Obligations.PowExactUpToTwoToFiftyThree := by
  intro a b hb hpow
  have hexp : (s32 b).toNat = (s32 b).natAbs := by omega
  rw [hexp] at hpow ⊢
  obtain ⟨hfin, hvalue⟩ := powRec_holdsInt ((natAbs_s32_le a).trans (by decide)) (natAbs_s32_lt b) hpow
  rw [powBits_eq_powRec, powBase_of_nonneg a hb]
  exact ⟨hfin, hvalue.trans (Int.cast_pow _ _)⟩

/-- The recursion of R231 stays in the class of its base, and its sign is the base's for odd exponents only. -/
theorem ClosedUnderFmul.powRec_mem {C : F64 → Prop} (hC : ClosedUnderFmul C) {base : F64} (hbase : C base) {n m : Nat}
    (hm : m < 2 ^ n) :
    C (powRec base n m) ∧ signField (powRec base n m) = (signField base && decide (m % 2 = 1)) := by
  induction n generalizing m with
  | zero =>
    obtain rfl : m = 0 := by omega
    exact ⟨hC.one_mem, by simp [powRec, signField_one]⟩
  | succ n ih =>
    obtain ⟨hhalf, -⟩ := ih (m := m / 2) (by omega)
    have hsquare := hC.mul_mem hhalf hhalf
    rw [powRec_succ]
    split
    case isTrue hodd =>
      exact ⟨hC.mul_mem hsquare hbase, by simp [hC.sign_mul hsquare hbase, hC.sign_mul hhalf hhalf, hodd]⟩
    case isFalse heven =>
      exact ⟨hsquare, by simp [hC.sign_mul hhalf hhalf, heven]⟩

/-- The base of POW has a magnitude of at least 1 or of at most 1, and the sign of the operand (R233). -/
theorem powBase_cases (a b : Word) :
    (AtLeastOne (powBase a b) ∨ AtMostOne (powBase a b)) ∧ signField (powBase a b) = decide (s32 a < 0) := by
  obtain ⟨hfin, hvalue⟩ := f64OfInt_s32_exact a
  have hmagnitude (hne : s32 a ≠ 0) : 1 ≤ |(s32 a : Rat)| := mod_cast Int.one_le_abs hne
  obtain hneg | hnonneg := lt_or_ge (s32 b) 0
  · rw [powBase_of_neg a hneg]
    obtain hzero | hne := eq_or_ne (s32 a) 0
    · rw [hzero]
      have hinf : fdiv f64One (f64OfInt 0) = withSign false infinityBits := by decide
      rw [hinf]
      exact ⟨.inl (atLeastOne_infinite false), signField_withSign _ _⟩
    · obtain ⟨hround, hsign⟩ := fdiv_of_isFinite isFinite_one hfin (by rw [hvalue]; exact_mod_cast hne)
      rw [hsign, signField_f64OfInt]
      refine ⟨.inr (hround.atMostOne ?_), by simp [signField_one]⟩
      rw [f64Value_one, hvalue, abs_div, abs_one]
      exact div_le_one_of_le₀ (hmagnitude hne) (abs_nonneg _)
  · rw [powBase_of_nonneg a hnonneg, signField_f64OfInt]
    obtain hzero | hne := eq_or_ne (s32 a) 0
    · refine ⟨.inr ⟨hfin, ?_⟩, rfl⟩
      rw [hvalue, hzero, Int.cast_zero, abs_zero]
      exact zero_le_one
    · exact ⟨.inl ⟨isNan_eq_false_of_isFinite hfin, fun _ => hvalue ▸ hmagnitude hne⟩, rfl⟩

/-- Settles O23: the recursion stays among the magnitudes of at least 1 or among those of at most 1. -/
theorem powSignRuleAndNoNan : Obligations.PowSignRuleAndNoNan := by
  intro a b
  obtain ⟨hclass, hbase⟩ := powBase_cases a b
  have hparity : (s32 b).natAbs % 2 = 1 ↔ s32 b % 2 = 1 := by omega
  rw [powBits_eq_powRec]
  obtain hlarge | hsmall := hclass
  · obtain ⟨hresult, hsign⟩ := atLeastOne_closedUnderFmul.powRec_mem hlarge (natAbs_s32_lt b)
    exact ⟨hresult.1, by simp [hsign, hbase, hparity]⟩
  · obtain ⟨hresult, hsign⟩ := atMostOne_closedUnderFmul.powRec_mem hsmall (natAbs_s32_lt b)
    exact ⟨isNan_eq_false_of_isFinite hresult.1, by simp [hsign, hbase, hparity]⟩

end Sys2Proof.Machine
end

section
/-! An illegal word from its accept to its completion (R252, R254), and the CMD readback of a running block (R24). -/

namespace Sys2Proof.Machine

section

variable {c s t : State} {n : Nat}

/-- No write to a running block changes the CMD readback: a CMD write is dropped (R24, R102). -/
theorem writeTarget_opLast_of_busy (g : Target) (v : Word) (hbusy : s.status.busy = true) :
    (writeTarget s g v).opLast = s.opLast := by
  cases g
  case cmd => simp [writeTarget, requestCommand, hbusy]
  all_goals rfl

/-- No access to a running block changes the CMD readback. -/
theorem busCycle_opLast_of_busy (p : PortIn) (hbusy : s.status.busy = true) : (busCycle s p).opLast = s.opLast := by
  unfold busCycle
  obtain h | ⟨-, -, g, -, h⟩ := accessEffect_cases (recordCycle s p) p <;> rw [h]
  · rfl
  · exact writeTarget_opLast_of_busy (s := recordCycle s p) g p.wdata hbusy

/-- The ENGINE's edge never writes the CMD readback (R24, R103). -/
theorem engineEdge_opLast {s' : State} (h : engineEdge s s' = .next t) : t.opLast = s'.opLast := by
  obtain ⟨-, he⟩ | ⟨-, -, he⟩ | ⟨-, -, he⟩ := engineEdge_cases s s' <;> rw [he] at h <;> cases h <;> rfl

/-- A running block keeps the CMD readback through a cycle without reset. -/
theorem Running.step_opLast (h : Running c n s) (hrst : (currentInput s).rst = false) (hstep : step s = .next t) :
    t.opLast = s.opLast := by
  rw [step_of_out_of_reset h.resetSeen hrst] at hstep
  exact (engineEdge_opLast hstep).trans (busCycle_opLast_of_busy _ h.busy)

/-- A running block keeps the CMD readback up to and through its completion edge. -/
theorem Running.run_opLast (h : Running c (n + 1) s) (hins : NoReset (n + 1) s.inputs)
    (hrun : core.run (n + 1) s = .next t) : t.opLast = s.opLast := by
  induction n generalizing s with
  | zero =>
    obtain ⟨u, -, hstep⟩ := h.step_last hins.currentInput_rst
    obtain rfl : complete u _ = t := Host.Outcome.next.inj ((run_succ_of_step 0 hstep).symm.trans hrun)
    exact h.step_opLast hins.currentInput_rst hstep
  | succ n ih =>
    obtain ⟨s', hstep, hs', hinputs⟩ := h.step_next hins.currentInput_rst
    have hrest : core.run (n + 1) s' = .next t := (run_succ_of_step (n + 1) hstep).symm.trans hrun
    exact (ih hs' (hinputs ▸ hins.tail) hrest).trans (h.step_opLast hins.currentInput_rst hstep)

end

/-- After an accept the CMD readback is `w[3:0]` up to and through the completion edge (R24, R101). -/
theorem opLast_of_cmdWrite_run {s t : State} {w : Word} {rest : List PortIn}
    (hpresents : Presents s (writeAccess 0x008 w) rest) (hbusy : s.status.busy = false) (hidle : s.phase = .idle)
    (hins : NoReset (Config.latency (opField w) s.opa s.opb) rest)
    (hrun : core.run (Config.latency (opField w) s.opa s.opb + 1) s = .next t) : t.opLast = opField w := by
  have ⟨hseen, _, _⟩ := hpresents
  have hrunning := accept_running (s := recordWrite s rest) hseen w
  rw [run_succ_of_step _ (step_of_cmdWrite_idle hpresents hbusy hidle)] at hrun
  exact hrunning.run_opLast hins hrun

/-- Settles O38: the command completes at its latency (O41) with the outcome of an illegal word, which writes no trace
entry. -/
theorem illegalWordCompletesWithCodeThree : Obligations.IllegalWordCompletesWithCodeThree := by
  intro s w rest l hpresents hbusy hidle hillegal hl hins
  obtain ⟨-, t, hrun, hcompleted, houtcome, htrace⟩ :=
    commandCompletesAtItsLatency s w rest l hpresents hbusy hidle hl hins
  rw [commandOutcome_of_illegal hillegal] at houtcome htrace
  obtain ⟨hresult, hresult2, hheader, -, herr, hcode, hunsup⟩ := houtcome
  subst hl
  have hunwritten : t.trace = s.trace := Vector.ext fun k hk => (htrace ⟨k, hk⟩ (Nat.zero_le k)).1
  exact ⟨one_le_latency _ _ _, t, hrun, hcompleted, herr, hcode, hunsup, hresult, hresult2,
    opLast_of_cmdWrite_run hpresents hbusy hidle hins hrun, hheader, hunwritten,
    fun k => (htrace k (Nat.zero_le k.val)).2⟩

end Sys2Proof.Machine
end

section
/-! An idle block without accesses (R262). -/

namespace Sys2Proof.Machine

variable {s : State}

/-- An idle cycle of an idle block changes nothing but the model's own record of it. -/
theorem step_of_unaccessed_idle (hseen : s.resetSeen = true) (hidle : s.phase = .idle) (hinputs : s.inputs = []) :
    step s = .next { s with port := outputs s PortIn.idle, draws := s.draws + 1 } := by
  have hcur : currentInput s = PortIn.idle := by rw [currentInput, hinputs]; rfl
  have hedge : engineEdge s (recordCycle s PortIn.idle) = .next (recordCycle s PortIn.idle) := by
    rw [engineEdge, hidle]
  rw [step_of_out_of_reset hseen (hcur ▸ rfl), hcur, busCycle_of_not_write s PortIn.idle rfl, hedge, recordCycle,
    hinputs, List.tail_nil]

/-- What `n` cycles leave of an idle block without accesses: everything but the record of the last cycle's output ports
and the draw counter. -/
theorem run_of_unaccessed_idle (n : Nat) (hseen : s.resetSeen = true) (hidle : s.phase = .idle)
    (hinputs : s.inputs = []) :
    ∃ q, core.run n s = .next { s with port := q, draws := s.draws + n } := by
  induction n generalizing s with
  | zero => exact ⟨s.port, rfl⟩
  | succ n ih =>
    obtain ⟨q, hrun⟩ := ih (s := { s with port := outputs s PortIn.idle, draws := s.draws + 1 }) hseen hidle hinputs
    refine ⟨q, (run_succ_of_step n (step_of_unaccessed_idle hseen hidle hinputs)).trans (hrun.trans ?_)⟩
    rw [Nat.add_assoc, Nat.add_comm 1 n]

/-- Settles O49: by the number of cycles. -/
theorem idleBlockHoldsItsState : Obligations.IdleBlockHoldsItsState := by
  intro s n hseen hidle hinputs
  obtain ⟨q, hrun⟩ := run_of_unaccessed_idle n hseen hidle hinputs
  exact ⟨_, hrun, rfl⟩

end Sys2Proof.Machine
end

section
/-! Which outcome a command has (R166, R250, R251): the causes of the errors and of UNSUP exclude each other, and every
outcome is the one of its cause. -/

namespace Sys2Proof.Machine

/-- The cause of each error (R250). -/
def ErrorCause (w b : Word) : CmdError → Prop
  | .divisionByZero => w = 3 ∧ s32 b = 0
  | .invalidDivisor => w = 8 ∧ ¬ ∃ k, k ≤ 30 ∧ u32 b = 2 ^ k
  | .illegalOperation => wordLegal w = false

/-- The cause of UNSUP: MUL, or DIV by a divisor that is not 0, with a negative operand (R166, R251). -/
def UnsupCause (w a b : Word) : Prop :=
  (w = 2 ∧ (s32 a < 0 ∨ s32 b < 0)) ∨ (w = 3 ∧ s32 b ≠ 0 ∧ (s32 a < 0 ∨ s32 b < 0))

/-- The outcomes of the command word `w` on the operands `a` and `b` as R251 orders them: that of the error whose cause
holds, else the unsupported one, else a normal one. -/
inductive Classified (w a b : Word) : CmdOutcome → Prop
  | error (e : CmdError) (hcause : ErrorCause w b e) : Classified w a b (raiseError e)
  | unsupported (op : OpCode) (hcause : UnsupCause w a b) : Classified w a b (unsupOutcome op a b)
  | normal (r r2 : Word) (padw : Nat) (es : List TraceEntry) (hnoError : ∀ e, ¬ ErrorCause w b e)
      (hnoUnsup : ¬ UnsupCause w a b) : Classified w a b (normalOutcome r r2 padw es)

/-- No two operations have one command word (R81). -/
theorem encode_inj {i j : Instr} : encode i = encode j ↔ i = j := by
  refine ⟨fun h => ?_, congrArg encode⟩
  have hdecode : decode (encode i) = .ok j := h ▸ decode_encode j
  exact Except.ok.inj ((decode_encode i).symm.trans hdecode)

theorem wordLegal_encode (i : Instr) : wordLegal (encode i) = true :=
  (exists_decode_eq_ok_iff _).1 ⟨i, decode_encode i⟩

/-- Every word is illegal or the command word of an operation (R83). -/
theorem illegal_or_eq_encode (w : Word) : wordLegal w = false ∨ ∃ i, w = encode i := by
  cases hlegal : wordLegal w with
  | false => exact .inl rfl
  | true =>
    obtain ⟨i, hi⟩ := (exists_decode_eq_ok_iff w).2 hlegal
    exact .inr ⟨i, eq_encode_of_decode hi⟩

section

variable {w a b : Word} {i : Instr} {e : CmdError}

/-- The errors of the operations: that of DIV and that of MODP2 (R250). -/
theorem errorCause_encode : ErrorCause (encode i) b e ↔
    (e = .divisionByZero ∧ i = .div ∧ s32 b = 0) ∨
      (e = .invalidDivisor ∧ i = .modp2 ∧ ¬ ∃ k, k ≤ 30 ∧ u32 b = 2 ^ k) := by
  have hdiv : ErrorCause (encode i) b .divisionByZero ↔ i = .div ∧ s32 b = 0 :=
    and_congr_left' (encode_inj (j := .div))
  have hmodp2 : ErrorCause (encode i) b .invalidDivisor ↔ i = .modp2 ∧ ¬ ∃ k, k ≤ 30 ∧ u32 b = 2 ^ k :=
    and_congr_left' (encode_inj (j := .modp2))
  cases e with
  | divisionByZero => simp [hdiv]
  | invalidDivisor => simp [hmodp2]
  | illegalOperation => simp [ErrorCause, wordLegal_encode]

/-- The operations with unsupported operands: MUL and DIV (R166). -/
theorem unsupCause_encode : UnsupCause (encode i) a b ↔
    (i = .mul ∧ (s32 a < 0 ∨ s32 b < 0)) ∨ (i = .div ∧ s32 b ≠ 0 ∧ (s32 a < 0 ∨ s32 b < 0)) :=
  or_congr (and_congr_left' (encode_inj (j := .mul))) (and_congr_left' (encode_inj (j := .div)))

/-- An illegal word has the one error IllegalOperation (R250). -/
theorem errorCause_of_illegal (h : wordLegal w = false) : ErrorCause w b e ↔ e = .illegalOperation := by
  cases e with
  | illegalOperation => simpa [ErrorCause] using h
  | divisionByZero | invalidDivisor =>
    refine iff_of_false ?_ nofun
    rintro ⟨rfl, -⟩
    exact absurd h (by decide)

/-- At most one error has its cause. -/
theorem ErrorCause.unique {e' : CmdError} (h : ErrorCause w b e) (h' : ErrorCause w b e') : e = e' := by
  obtain hillegal | ⟨i, rfl⟩ := illegal_or_eq_encode w
  · rw [errorCause_of_illegal hillegal] at h h'
    rw [h, h']
  · rw [errorCause_encode] at h h'
    obtain ⟨rfl, rfl, -⟩ | ⟨rfl, rfl, -⟩ := h
    · obtain ⟨rfl, -⟩ | ⟨-, hi, -⟩ := h'
      · rfl
      · cases hi
    · obtain ⟨-, hi, -⟩ | ⟨rfl, -⟩ := h'
      · cases hi
      · rfl

/-- Operands that cause an error do not count as unsupported (R251). -/
theorem ErrorCause.not_unsupCause (h : ErrorCause w b e) : ¬ UnsupCause w a b := by
  obtain hillegal | ⟨i, rfl⟩ := illegal_or_eq_encode w
  · rintro (⟨rfl, -⟩ | ⟨rfl, -⟩) <;> exact absurd hillegal (by decide)
  · rw [errorCause_encode] at h
    rw [unsupCause_encode]
    obtain ⟨-, rfl, hzero⟩ | ⟨-, rfl, -⟩ := h
    · simp [hzero]
    · simp

/-- Eight operations raise no error and support all operands. -/
theorem classified_normal (hmul : i ≠ .mul) (hdiv : i ≠ .div) (hmodp2 : i ≠ .modp2) (r r2 : Word) (padw : Nat)
    (es : List TraceEntry) : Classified (encode i) a b (normalOutcome r r2 padw es) :=
  .normal r r2 padw es (by simp [errorCause_encode, hdiv, hmodp2]) (by simp [unsupCause_encode, hmul, hdiv])

/-- MUL supports the operands that are not negative (R160). -/
theorem mulOutcome_classified : Classified (encode .mul) a b (mulOutcome a b) := by
  unfold mulOutcome
  split <;> rename_i hneg <;> rw [negativeOperand_eq_true_iff] at hneg
  · exact .unsupported _ (unsupCause_encode.2 (.inl ⟨rfl, hneg⟩))
  · exact .normal _ _ _ _ (by simp [errorCause_encode]) (by simpa [unsupCause_encode] using hneg)

/-- DIV checks its divisor before it looks for a negative operand (R251). -/
theorem divOutcome_classified : Classified (encode .div) a b (divOutcome a b) := by
  unfold divOutcome
  split <;> rename_i hzero <;> rw [← s32_eq_zero_iff] at hzero
  · exact .error .divisionByZero (errorCause_encode.2 (.inl ⟨rfl, rfl, hzero⟩))
  · split <;> rename_i hneg <;> rw [negativeOperand_eq_true_iff] at hneg
    · exact .unsupported _ (unsupCause_encode.2 (.inr ⟨rfl, hzero, hneg⟩))
    · exact .normal _ _ _ _ (by simp [errorCause_encode, hzero]) (by simpa [unsupCause_encode, hzero] using hneg)

/-- MODP2 lets exactly the moduli `2^0` to `2^30` pass (R201). -/
theorem modp2Outcome_classified : Classified (encode .modp2) a b (modp2Outcome a b) := by
  unfold modp2Outcome
  split <;> rename_i hpower <;> rw [isp2_iff] at hpower
  · exact .normal _ _ _ _ (by simpa [errorCause_encode] using hpower) (by simp [unsupCause_encode])
  · exact .error .invalidDivisor (errorCause_encode.2 (.inr ⟨rfl, rfl, hpower⟩))

/-- Every operation decides its outcome in the order of R251. -/
theorem outcomeOf_classified (i : Instr) (a b : Word) : Classified (encode i) a b (outcomeOf i a b) := by
  cases i with
  | mul => exact mulOutcome_classified
  | div => exact divOutcome_classified
  | modp2 => exact modp2Outcome_classified
  | add | sub | and | or | even | popcnt | ispow2 | pow =>
    exact classified_normal (by decide) (by decide) (by decide) _ _ _ _

/-- Every command decides its outcome in the order of R251. -/
theorem commandOutcome_classified (w a b : Word) : Classified w a b (commandOutcome w a b) := by
  obtain hillegal | ⟨i, rfl⟩ := illegal_or_eq_encode w
  · rw [commandOutcome_of_illegal hillegal]
    exact .error .illegalOperation hillegal
  · rw [commandOutcome, decode_encode]
    exact outcomeOf_classified i a b

/-- No two errors have one code (R250). -/
theorem CmdError.code_inj {e' : CmdError} : e.code = e'.code ↔ e = e' := by
  cases e <;> cases e' <;> simp [CmdError.code]

/-- Code 0 stands for no error (R250). -/
theorem CmdError.zero_ne_code (e : CmdError) : 0 ≠ e.code := by
  cases e <;> decide

section

variable {o : CmdOutcome}

/-- The cause of an error decides the whole outcome (R252). -/
theorem Classified.eq_raiseError (h : Classified w a b o) (hcause : ErrorCause w b e) : o = raiseError e := by
  cases h with
  | error e' hcause' => rw [hcause'.unique hcause]
  | unsupported op hunsup => exact absurd hunsup hcause.not_unsupCause
  | normal r r2 padw es hnoError hnoUnsup => exact absurd hcause (hnoError e)

/-- An outcome with ERR = 1 is an error outcome (R252). -/
theorem Classified.of_err (h : Classified w a b o) (herr : o.err = true) :
    ∃ e, ErrorCause w b e ∧ o = raiseError e := by
  cases h with
  | error e hcause => exact ⟨e, hcause, rfl⟩
  | unsupported op hunsup => cases herr
  | normal r r2 padw es hnoError hnoUnsup => cases herr

/-- ERRCODE is the code of an error exactly when the cause of that error holds (R250). -/
theorem Classified.code_iff (h : Classified w a b o) : o.code = e.code ↔ ErrorCause w b e := by
  cases h with
  | error e' hcause =>
    exact ⟨fun hcode => CmdError.code_inj.1 hcode ▸ hcause,
      fun hcause' => congrArg CmdError.code (hcause.unique hcause')⟩
  | unsupported op hunsup => exact iff_of_false e.zero_ne_code fun hcause => hcause.not_unsupCause hunsup
  | normal r r2 padw es hnoError hnoUnsup => exact iff_of_false e.zero_ne_code (hnoError e)

/-- UNSUP is 1 exactly when its cause holds (R166). -/
theorem Classified.unsup_iff (h : Classified w a b o) : o.unsup = true ↔ UnsupCause w a b := by
  cases h with
  | error e hcause => exact iff_of_false nofun hcause.not_unsupCause
  | unsupported op hunsup => exact iff_of_true rfl hunsup
  | normal r r2 padw es hnoError hnoUnsup => exact iff_of_false nofun hnoUnsup

end

end

/-- Settles O28: every outcome is that of its cause, and the causes exclude each other. -/
theorem outcomeClassification : Obligations.OutcomeClassification := by
  rintro w a b _ rfl
  have hclass := commandOutcome_classified w a b
  have hlegal := commandOutcome_legal w a b
  have herr : (commandOutcome w a b).err = true ↔ (commandOutcome w a b).code ≠ 0 := by
    rw [Ne, ← hlegal.err_iff, Bool.not_eq_false]
  refine ⟨fun h => hclass.eq_raiseError (e := .illegalOperation) h,
    fun hw hb => hclass.eq_raiseError (e := .divisionByZero) ⟨hw, hb⟩,
    fun hw hb => hclass.eq_raiseError (e := .invalidDivisor) ⟨hw, hb⟩, hclass.unsup_iff,
    hclass.code_iff (e := .illegalOperation), hclass.code_iff (e := .divisionByZero),
    hclass.code_iff (e := .invalidDivisor), hlegal.code_le, herr, hlegal.not_both, fun h => ?_⟩
  obtain ⟨e, -, he⟩ := hclass.of_err h
  rw [he]
  exact ⟨rfl, rfl, rfl, rfl⟩

end Sys2Proof.Machine
end

section
/-! The reset edge (R280 to R282), and that every other step of a block out of power-up goes on (R293). -/

namespace Sys2Proof.Machine

/-- The input of a cycle is the next scheduled one. -/
theorem currentInput_of_inputs {s : State} {p : PortIn} {rest : List PortIn} (h : s.inputs = p :: rest) :
    currentInput s = p := by
  simp [currentInput, h]

/-- A cycle with `rst` = 1 is the reset edge, whatever access is presented (R280, R282). -/
theorem step_of_reset {s : State} (hrst : (currentInput s).rst = true) :
    step s = .next (resetEdge (recordCycle s (currentInput s))) := by
  simp [step, clockCycle, resetCycle, hrst]

/-- In a cycle with `rst` = 1 the bus answers nothing (R282; without an access: log entry 10). -/
theorem outputs_of_reset (s : State) {p : PortIn} (hrst : p.rst = true) :
    (outputs s p).rdata = 0 ∧ (outputs s p).err = false := by
  simp [outputs, readData, errorResponse, hrst]

/-- Settles O44: every register by its reset value; the trace window reads 0 because LEN is 0. -/
theorem resetEdgeWinsFromEveryState : Obligations.ResetEdgeWinsFromEveryState := by
  intro s p rest hinputs hrst
  have hcur := currentInput_of_inputs hinputs
  have hstep : step s = .next (resetEdge (recordCycle s p)) := hcur ▸ step_of_reset (hcur ▸ hrst)
  have hrest : (resetEdge (recordCycle s p)).inputs = rest := by simp [hinputs]
  have ⟨hrdata, herr⟩ := outputs_of_reset s hrst
  exact ⟨_, hstep, rfl, rfl, rfl, rfl, rfl, rfl, rfl, rfl, rfl,
    fun k j => readTarget_trace_of_len_le _ k j rfl (Nat.zero_le k.val), rfl, hrest, hrdata, herr⟩

/-- No write of the HOST undoes that a reset edge has happened. -/
theorem writeTarget_resetSeen (s : State) (t : Target) (v : Word) : (writeTarget s t v).resetSeen = s.resetSeen := by
  cases t
  case cmd => obtain ⟨-, h⟩ | ⟨-, h⟩ := requestCommand_cases s v <;> rw [writeTarget, h] <;> rfl
  all_goals rfl

/-- No access of the HOST undoes that a reset edge has happened. -/
theorem busCycle_resetSeen (s : State) (p : PortIn) : (busCycle s p).resetSeen = s.resetSeen := by
  unfold busCycle
  obtain h | ⟨-, -, t, -, h⟩ := accessEffect_cases (recordCycle s p) p <;> rw [h]
  · rfl
  · exact writeTarget_resetSeen (recordCycle s p) t p.wdata

/-- After the first reset edge every step gives a next state, itself after that edge, under every input (R293). -/
theorem exists_step_of_resetSeen {s : State} (hseen : s.resetSeen = true) :
    ∃ t, step s = .next t ∧ t.resetSeen = true := by
  cases hrst : (currentInput s).rst with
  | true => exact ⟨_, step_of_reset hrst, rfl⟩
  | false =>
    obtain ⟨t, ht, htseen⟩ := engineEdge_next s (busCycle s (currentInput s))
    exact ⟨t, (step_of_out_of_reset hseen hrst).trans ht, htseen.trans ((busCycle_resetSeen s _).trans hseen)⟩

/-- A step is refused exactly when an access without reset comes before the first reset edge, and for no other reason
(U6, log entry 9). -/
theorem step_eq_refused_iff (s : State) (r : Refusal) :
    step s = .refused r ↔ r = .beforeFirstReset ∧ s.resetSeen = false ∧ (currentInput s).sel = true ∧
      (currentInput s).rst = false := by
  obtain ⟨hrst, he⟩ | ⟨-, hseen, -⟩ | ⟨hrst, hseen, hsel, he⟩ | ⟨-, -, hsel, he⟩ := step_cases s
  · simp [he, hrst]
  · obtain ⟨t, ht, -⟩ := exists_step_of_resetSeen hseen
    simp [ht, hseen]
  · simp [he, hrst, hseen, hsel, eq_comm]
  · simp [he, hsel]

/-- Settles O48: the steps after the first reset edge, and the one reason of a refusal before it. -/
theorem theBlockNeverStops : Obligations.TheBlockNeverStops := by
  intro s
  refine ⟨exists_step_of_resetSeen, fun hseen => ?refused, fun r h => ?notModelled⟩
  case refused => simp [step_eq_refused_iff, hseen]
  case notModelled => exact nomatch ((step_eq_refused_iff s _).1 h).1

end Sys2Proof.Machine
end

section
/-! What the HOST sees of a running command and what it can lose (R285 to R287, R292), and that its accesses do not reach
the command (R288). -/

namespace Sys2Proof.Machine

variable {s : State} {p : PortIn} {g : Target}

/-- A read of a mapped offset delivers its target and raises no `err` (R61, R64). -/
theorem outputs_read (s : State) (hsel : p.sel = true) (hwe : p.we = false) (hrst : p.rst = false)
    (hmap : mapAddr p.addr = some g) : (outputs s p).rdata = readTarget s g ∧ (outputs s p).err = false := by
  simp [outputs, readData, errorResponse, hsel, hwe, hrst, hmap]

/-- Settles O52: the read of the target, which is a draw or the held word; a cycle without a write is only recorded. -/
theorem outcomeReadsWhileBusyAreFreeDraws : Obligations.OutcomeReadsWhileBusyAreFreeDraws := by
  intro s p g hbusy hsel hwe hrst hmap
  obtain ⟨hrdata, herr⟩ := outputs_read s hsel hwe hrst hmap
  have hrecord : busCycle s p = recordCycle s p := busCycle_of_not_write s p (by simp [hwe])
  exact ⟨herr, by rw [hrecord, recordCycle_draws], hrecord,
    fun hheld => hrdata.trans (readTarget_of_busy hbusy hheld),
    fun hheld => hrdata.trans (readTarget_of_not_holdsOutcome s hheld)⟩

/-- What a dutiful HOST reads is the word that the target holds: while BUSY = 1 it reads no outcome register (R286). -/
theorem HostDutiful.readTarget_eq (h : HostDutiful s p) (hsel : p.sel = true) (hwe : p.we = false)
    (hmap : mapAddr p.addr = some g) : readTarget s g = heldWord s g := by
  cases hbusy : s.status.busy with
  | false => simp [readTarget, hbusy]
  | true =>
    have hduty := h hsel hbusy g hmap
    exact readTarget_of_not_holdsOutcome s (by simpa [hwe] using hduty)

/-- DROP rises in no write but one of CMD to a busy block (R30). -/
theorem drop_of_writeTarget_drop {v : Word} (hcmd : g = .cmd → s.status.busy = false)
    (h : (writeTarget s g v).status.drop = true) : s.status.drop = true := by
  obtain ⟨-, hw⟩ | ⟨-, hw⟩ | ⟨hg, hw⟩ | ⟨-, hw⟩ | hw := writeTarget_cases s g v <;> rw [hw] at h
  · exact h
  · exact h
  · obtain ⟨-, hreq⟩ | ⟨hbusy, -⟩ := requestCommand_cases s v
    · rw [hreq] at h
      exact h
    · exact absurd (hcmd hg) (by simp [hbusy])
  · rw [status_onWrite_drop, Bool.and_eq_true] at h
    exact h.1
  · exact h

/-- A dutiful HOST loses no command: it writes no CMD while BUSY = 1 (R292). -/
theorem HostDutiful.drop_of_busCycle_drop (h : HostDutiful s p) (hdrop : (busCycle s p).status.drop = true) :
    s.status.drop = true := by
  unfold busCycle at hdrop
  obtain he | ⟨hsel, hwe, g, hmap, he⟩ := accessEffect_cases (recordCycle s p) p <;> rw [he] at hdrop
  · exact hdrop
  · refine drop_of_writeTarget_drop (s := recordCycle s p) (fun hcmd => ?idle) hdrop
    by_contra hbusy
    have hduty := h hsel (by simpa using hbusy) g hmap
    simp [hwe, hcmd] at hduty

/-- Settles O57: by the two duties. -/
theorem dutifulHostReadsExactValues : Obligations.DutifulHostReadsExactValues := by
  intro s p hrst hduty
  refine ⟨fun g hsel hwe hmap => ?exact, hduty.drop_of_busCycle_drop⟩
  case exact => exact (outputs_read s hsel hwe hrst hmap).1.trans (hduty.readTarget_eq hsel hwe hmap)

/-- BUSY is bit 0 of STATUS (R25). -/
theorem Status.word_bit_zero (t : Status) : t.word.getLsbD 0 = t.busy := by
  simp only [Status.word, BitVec.getLsbD_append]
  simp

/-- A STATUS read gives STATUS as its cycle begins, also at the completion edge (R61, R285). -/
theorem step_of_statusRead {rest : List PortIn} (h : Presents s (readAccess 0x00C) rest) :
    ∃ t, step s = .next t ∧ t.port.err = false ∧ t.port.rdata = s.status.word := by
  obtain ⟨t, ht, -⟩ := engineEdge_next s (busCycle s (readAccess 0x00C))
  have hstep : step s = .next t := (step_of_presents h).trans ht
  have ⟨_, hinputs, _⟩ := h
  have hport : t.port = outputs s (readAccess 0x00C) := currentInput_of_inputs hinputs ▸ step_port hstep
  obtain ⟨hrdata, herr⟩ := outputs_read (p := readAccess 0x00C) (g := .status) s rfl rfl rfl rfl
  exact ⟨t, hstep, hport ▸ herr, by rw [hport, hrdata, readTarget_of_not_holdsOutcome s rfl, heldWord]⟩

/-- Settles O43: the accept sets BUSY and clears DONE, and the read in the next cycle gives the STATUS that it left. -/
theorem firstPollAfterAcceptSeesBusy : Obligations.FirstPollAfterAcceptSeesBusy := by
  intro s w rest hpresents hbusy hidle
  have haccept := step_of_cmdWrite_idle hpresents hbusy hidle
  have ⟨hseen, _, _⟩ := hpresents
  have hpoll : Presents (accept (recordWrite s (readAccess 0x00C :: rest)) w) (readAccess 0x00C) rest :=
    ⟨hseen, rfl, rfl⟩
  obtain ⟨t, hstep, herr, hrdata⟩ := step_of_statusRead hpoll
  refine ⟨t, (run_succ_of_step 1 haccept).trans (run_succ_of_step 0 hstep), herr, ?busy, ?done⟩
  case busy => rw [hrdata, Status.word_bit_zero]; rfl
  case done => rw [hrdata, Status.word_bit_one]; rfl

/-- Under every schedule without reset a running block completes at the last of its edges, with the outcome of what its
accept latched (R103, R288). -/
theorem run_completes_under_schedule {schedule : List PortIn} (hseen : s.resetSeen = true) (hphase : s.phase = .run)
    (hbusy : s.status.busy = true) (hleft : 1 ≤ s.remaining) (hins : NoReset s.remaining schedule) :
    ∃ u, Running s 1 u ∧ core.run s.remaining { s with inputs := schedule } =
      .next (complete u (commandOutcome s.latW s.latA s.latB)) := by
  obtain ⟨n, hn⟩ := Nat.exists_eq_add_of_le' hleft
  have hrunning : Running s (n + 1) { s with inputs := schedule } :=
    ⟨hseen, hphase, hbusy, rfl, hn, rfl, rfl, rfl, rfl⟩
  obtain ⟨u, hu, hrun⟩ := hrunning.run_completes (hn ▸ hins)
  exact ⟨u, hu, (congrArg (core.run · { s with inputs := schedule }) hn).trans hrun⟩

/-- Settles O42: under either schedule the command completes with the outcome of what its accept latched, and both write
it over the same trace buffer. -/
theorem hostTrafficCannotChangeARunningCommand : Obligations.HostTrafficCannotChangeARunningCommand := by
  intro s ins ins' hseen hbusy hphase hleft hins hins'
  obtain ⟨u, hu, hrun⟩ := run_completes_under_schedule hseen hphase hbusy hleft hins
  obtain ⟨u', hu', hrun'⟩ := run_completes_under_schedule hseen hphase hbusy hleft hins'
  refine ⟨_, _, hrun, hrun', complete_completed u _, complete_completed u' _, rfl, rfl, ?header, ?trace, rfl, rfl, rfl⟩
  case header => rw [complete_traceHdr, complete_traceHdr, hu.latW, hu'.latW]
  case trace => rw [complete_trace, complete_trace, hu.trace, hu'.trace]

end Sys2Proof.Machine
end

section
/-! The base case of the invariant (R25, R36, R40): the reset state is one that a reset edge leaves. -/

namespace Sys2Proof.Machine

/-- A reset edge out of the reset state changes nothing (R280). -/
@[simp] theorem resetEdge_reset : resetEdge State.reset = State.reset := rfl

/-- Settles O46: a reset edge meets the invariant from every state, and it leaves the reset state as it is. -/
theorem resetMeetsTheInvariant : Obligations.ResetMeetsTheInvariant := by
  have hedge : BlockInvariant (resetEdge State.reset) := resetEdge_invariant State.reset
  rwa [resetEdge_reset] at hedge

end Sys2Proof.Machine
end
